-- ==== Sys2Proof/Word.lean ====
section
/-! DEFINITION. The word types of the S2A-BPU. Every value is unsigned (R7). -/

namespace Sys2Proof

/-- A byte: a palette index (`PIX_W` = 8, R6), a byte of a block, an attribute byte. -/
abbrev Byte := BitVec 8

/-- A 32-bit register or command word (R32, R90). -/
abbrev Word := BitVec 32

/-- A dictionary index or a raw map cell (`IDX_W` = 16, R6). -/
abbrev Index := BitVec 16

end Sys2Proof
end

