-- ==== Sys2Proof/Syntax.lean ====
section
/-! DEFINITION. The commands of the unit: one constructor for each row of the opcode table (R96), with the operands of
its format (R91-R94) as names and unsigned fields (R95). -/

namespace Sys2Proof

/-- The `CTX` operand: a character or a sprite (R92, R93, R130). -/
inductive Context where
  | character
  | sprite
deriving DecidableEq, Repr

/-- A pixel width: hires, 1 bit per pixel, or multicolor, 2 bits per pixel (R10). Also a global mode. -/
inductive PixelWidth where
  | hires
  | multicolor
deriving DecidableEq, Repr

/-- The `WSEL` operand of `ENCODE` (R93). The value `11` is reserved, and a word that holds it is illegal (R97). -/
inductive WidthSel where
  | auto
  | hires
  | multicolor
  | reserved
deriving DecidableEq, Repr

/-- The commands of R96. -/
inductive Instr where
  | clear
  | roleReset
  | resolve (ctx : Context) (width : PixelWidth) (pix : Byte)
  | detect (ctx : Context) (x y : BitVec 12)
  | encode (ctx : Context) (wsel : WidthSel) (x y : BitVec 12)
  | lookupInsert
  | promoteEmpty
  | buildCell (cx cy : BitVec 12)
  | buildCharmap
  | finalize
  | readDict (idx : Index) (byte : Byte)
  | readMap (idx : Index)
  | readCmap (idx : Index)
  | readBuf (byte : Byte)
deriving DecidableEq, Repr

/-- Why R97 calls a command word illegal. -/
inductive IllegalReason where
  /-- `OP` is in `0xB` .. `0xF`. -/
  | reservedOpcode
  /-- A bit that the format requires to be 0 is 1. -/
  | mustBeZero
  /-- `ENCODE` with `WSEL = 11`. -/
  | reservedWsel
  /-- `READ` with `SEL ≥ 4`. -/
  | reservedSel
deriving DecidableEq, Repr

/-- What a 32-bit word is: a legal command, or illegal with the reason (R97: decoding is total). -/
inductive Decoded where
  | legal (i : Instr)
  | illegal (r : IllegalReason)
deriving DecidableEq, Repr

end Sys2Proof
end

