-- ==== Sys2Proof/WellFormed.lean ====
section
/-! DEFINITION. Which terms of `Instr` are commands of the unit. The operands' types leave one check: `WSEL = 11` of
`ENCODE` is reserved (R93, R97). -/

namespace Sys2Proof

/-- The check of R97 that the operands' types do not make. -/
def Instr.wellFormed : Instr → Bool
  | .clear => true
  | .roleReset => true
  | .resolve _ _ _ => true
  | .detect _ _ _ => true
  | .encode _ wsel _ _ => wsel != .reserved
  | .lookupInsert => true
  | .promoteEmpty => true
  | .buildCell _ _ => true
  | .buildCharmap => true
  | .finalize => true
  | .readDict _ _ => true
  | .readMap _ => true
  | .readCmap _ => true
  | .readBuf _ => true

end Sys2Proof
end

