-- ==== Sys2Proof/Decode.lean ====
section
/-! DEFINITION. Command decoding (R90-R97), total, and after it the encoder, both from the formats and the opcode map of
spec/30_encoding.md. -/

namespace Sys2Proof

/-- `CTX`: 0 is a character, 1 a sprite (R92, R93). -/
def contextOf (b : BitVec 1) : Context := if b = 0#1 then .character else .sprite

/-- `W`: 0 is hires, 1 multicolor (R92). -/
def widthOf (b : BitVec 1) : PixelWidth := if b = 0#1 then .hires else .multicolor

/-- `WSEL`: `00` auto, `01` hires, `10` multicolor, `11` reserved (R93). -/
def widthSelOf (b : BitVec 2) : WidthSel :=
  if b = 0#2 then .auto else if b = 1#2 then .hires else if b = 2#2 then .multicolor else .reserved

/-- A command of format Z: bits 27:0 must be 0 (R91). -/
def decodeZ (w : Word) (i : Instr) : Decoded :=
  if w.extractLsb' 0 28 = 0#28 then .legal i else .illegal .mustBeZero

/-- Format P, `RESOLVE`: bits 25:8 must be 0 (R92). -/
def decodeResolve (w : Word) : Decoded :=
  if w.extractLsb' 8 18 = 0#18 then
    .legal (.resolve (contextOf (w.extractLsb' 27 1)) (widthOf (w.extractLsb' 26 1)) (w.extractLsb' 0 8))
  else .illegal .mustBeZero

/-- Format R, `DETECT`: `WSEL` and bit 24 must be 0 (R93). -/
def decodeDetect (w : Word) : Decoded :=
  if w.extractLsb' 24 3 = 0#3 then
    .legal (.detect (contextOf (w.extractLsb' 27 1)) (w.extractLsb' 0 12) (w.extractLsb' 12 12))
  else .illegal .mustBeZero

/-- Format R, `ENCODE`: bit 24 must be 0, and `WSEL = 11` is reserved (R93, R97). -/
def decodeEncode (w : Word) : Decoded :=
  if w.extractLsb' 24 1 = 0#1 then
    if w.extractLsb' 25 2 = 3#2 then .illegal .reservedWsel
    else .legal (.encode (contextOf (w.extractLsb' 27 1)) (widthSelOf (w.extractLsb' 25 2)) (w.extractLsb' 0 12)
      (w.extractLsb' 12 12))
  else .illegal .mustBeZero

/-- Format R, `BUILD_CELL`: `CTX`, `WSEL` and bit 24 must be 0 (R93). -/
def decodeBuildCell (w : Word) : Decoded :=
  if w.extractLsb' 24 4 = 0#4 then .legal (.buildCell (w.extractLsb' 0 12) (w.extractLsb' 12 12))
  else .illegal .mustBeZero

/-- Format A, `READ`: `SEL` selects the array, and 4 .. 15 are reserved (R94). -/
def decodeRead (w : Word) : Decoded :=
  if w.extractLsb' 24 4 = 0#4 then .legal (.readDict (w.extractLsb' 8 16) (w.extractLsb' 0 8))
  else if w.extractLsb' 24 4 = 1#4 then
    if w.extractLsb' 0 8 = 0#8 then .legal (.readMap (w.extractLsb' 8 16)) else .illegal .mustBeZero
  else if w.extractLsb' 24 4 = 2#4 then
    if w.extractLsb' 0 8 = 0#8 then .legal (.readCmap (w.extractLsb' 8 16)) else .illegal .mustBeZero
  else if w.extractLsb' 24 4 = 3#4 then
    if w.extractLsb' 8 16 = 0#16 then .legal (.readBuf (w.extractLsb' 0 8)) else .illegal .mustBeZero
  else .illegal .reservedSel

/-- The command a word encodes, or why the word is illegal. The opcode, bits 31:28, alone selects the format (R90, R96,
R97). -/
def decode (w : Word) : Decoded :=
  match (w.extractLsb' 28 4).toNat with
  | 0x0 => decodeZ w .clear
  | 0x1 => decodeZ w .roleReset
  | 0x2 => decodeResolve w
  | 0x3 => decodeDetect w
  | 0x4 => decodeEncode w
  | 0x5 => decodeZ w .lookupInsert
  | 0x6 => decodeZ w .promoteEmpty
  | 0x7 => decodeBuildCell w
  | 0x8 => decodeZ w .buildCharmap
  | 0x9 => decodeZ w .finalize
  | 0xA => decodeRead w
  | _ => .illegal .reservedOpcode

/-- The word whose bits are `w`, cut to `nbits`: one 32-bit word (R90). A number that needs more bits is no command. -/
def tableWord (nbits w : Nat) : Option Word :=
  if w % 2 ^ nbits < 2 ^ 32 then some (BitVec.ofNat 32 (w % 2 ^ nbits)) else none

/-- The command that the decoder reads from an instruction of the opcode table's numbering. -/
def decodeTableWord (nbits w : Nat) : Option Instr :=
  match tableWord nbits w with
  | some v =>
    match decode v with
    | .legal i => some i
    | .illegal _ => none
  | none => none

/-- The `CTX` bit (R92, R93). -/
def contextBit : Context → BitVec 1
  | .character => 0#1
  | .sprite => 1#1

/-- The `W` bit (R92). -/
def widthBit : PixelWidth → BitVec 1
  | .hires => 0#1
  | .multicolor => 1#1

/-- The `WSEL` bits (R93). -/
def widthSelBits : WidthSel → BitVec 2
  | .auto => 0#2
  | .hires => 1#2
  | .multicolor => 2#2
  | .reserved => 3#2

/-- The word of a command: the fields of its format from the top (R91-R94), under the opcode of R96. -/
def encode : Instr → Word
  | .clear => (0x0#4 ++ 0#28).setWidth 32
  | .roleReset => (0x1#4 ++ 0#28).setWidth 32
  | .resolve ctx width pix => (0x2#4 ++ contextBit ctx ++ widthBit width ++ 0#18 ++ pix).setWidth 32
  | .detect ctx x y => (0x3#4 ++ contextBit ctx ++ 0#2 ++ 0#1 ++ y ++ x).setWidth 32
  | .encode ctx wsel x y => (0x4#4 ++ contextBit ctx ++ widthSelBits wsel ++ 0#1 ++ y ++ x).setWidth 32
  | .lookupInsert => (0x5#4 ++ 0#28).setWidth 32
  | .promoteEmpty => (0x6#4 ++ 0#28).setWidth 32
  | .buildCell cx cy => (0x7#4 ++ 0#1 ++ 0#2 ++ 0#1 ++ cy ++ cx).setWidth 32
  | .buildCharmap => (0x8#4 ++ 0#28).setWidth 32
  | .finalize => (0x9#4 ++ 0#28).setWidth 32
  | .readDict idx byte => (0xA#4 ++ 0#4 ++ idx ++ byte).setWidth 32
  | .readMap idx => (0xA#4 ++ 1#4 ++ idx ++ 0#8).setWidth 32
  | .readCmap idx => (0xA#4 ++ 2#4 ++ idx ++ 0#8).setWidth 32
  | .readBuf byte => (0xA#4 ++ 3#4 ++ 0#16 ++ byte).setWidth 32

end Sys2Proof
end

