-- ==== Sys2Proof/Config.lean ====
section
/-! DEFINITION. What one instance of the unit fixes: its two capacities. R6 leaves both OPEN, each in 1 .. 65536, so each
is an opaque number below 65536, plus one (log entry 1). No proof can see which number it is. -/

namespace Sys2Proof

/-- `DICT_CAP` less one (R6, OPEN; log entry 1). -/
opaque Config.dictCapLessOne : Fin 65536

/-- `MAP_CAP` less one (R6, OPEN; log entry 1). -/
opaque Config.mapCapLessOne : Fin 65536

/-- `DICT_CAP`, the dictionary's capacity in entries, 1 .. 65536 (R6). -/
def Config.dictCap : Nat := Config.dictCapLessOne.val + 1

/-- `MAP_CAP`, the map's capacity in cells, 1 .. 65536 (R6). -/
def Config.mapCap : Nat := Config.mapCapLessOne.val + 1

end Sys2Proof
end

