-- ==== Sys2Proof/Machine/State.lean ====
section
/-! DEFINITION. The state of the unit as plain data: every register of R32, the role file, the block buffer, the
dictionary, the maps, the raster behind the read port, and the two fields that are the model's own (what the host does
next, and what the bus last returned). -/

namespace Sys2Proof.Machine

/-- A dictionary entry: the 8 bytes of an encoded character block (R49). -/
abbrev Block := Vector Byte 8

/-- The raster's memory: a list of (address, palette index) pairs in the canonical form of `Memory.wf`. Pixel `(x, y)` has
the address `y · 65536 + x` (log entry 2). -/
abbrev Memory := List Host.Cell

/-- The fault codes of R220. -/
inductive FaultCode where
  | capacity
  | format
  /-- Reserved, never raised (R222). -/
  | incompleteData
  | illegalCommand
  | range
  | config
  | sequence
deriving DecidableEq, Repr

/-- The flags of `STATUS` (R45). `BUSY` and the reserved bits always read 0 and are held nowhere. -/
structure Status where
  /-- Bit 0: a fatal error aborted the current image. -/
  fault : Bool
  /-- Bits 7:4: the fault code of R220, 0 when there is no fault. -/
  err : BitVec 4
  /-- Bit 8: the AddressSpaceWarning. -/
  asw : Bool
  /-- Bit 9: at least one command was ignored. -/
  ign : Bool
  /-- Bit 10, `NEW`: the last insertion created an entry. -/
  newEntry : Bool
  /-- Bit 11: the block buffer holds an encoded block. -/
  blkV : Bool
  /-- Bit 12: the buffered block has 2 bits per pixel. -/
  blkMc : Bool
  /-- Bit 13: the buffered block is a sprite. -/
  blkSpr : Bool
  /-- Bit 14: every data byte of the buffered block is zero. -/
  blkBlank : Bool
deriving DecidableEq, Repr

/-- The role file (R46), in priority order. A bound role holds a palette index. An unbound one is `none`, and its `v`
reads 0. -/
structure RoleFile where
  bg : Option Byte
  mc1 : Option Byte
  mc2 : Option Byte
  uq : Option Byte
deriving DecidableEq, Repr

/-- A written cell of the maps: `Map[k]`, the raw dictionary index, and `CMap[k]`, the attribute byte (R52, R53). -/
structure MapCell where
  idx : Index
  attr : Byte
deriving DecidableEq, Repr

/-- The width of a bus access. The unit defines only the 32-bit one (R75). -/
inductive AccessSize where
  | byte
  | half
  | word
deriving DecidableEq, Repr

/-- What comes to the unit from outside (R5): the host's bus accesses, the host's image on the raster port, and the
platform's reset. -/
inductive HostEvent where
  /-- A bus read at a byte offset (R204). -/
  | read (size : AccessSize) (off : Byte)
  /-- A bus write at a byte offset (R205). A write to `CMD` issues a command. -/
  | write (size : AccessSize) (off : Byte) (value : Word)
  /-- The host connects the raster read port to an image, between two commands (R252 step 1, R259). -/
  | connectRaster (pixels : List Host.Cell)
  /-- The platform's hardware reset (R250). -/
  | hardReset
deriving DecidableEq, Repr

/-- The state. A configuration register holds exactly its defined bits, so the reserved ones read 0 and drop writes (R32).
`ID`, `CMD`, `MAP_DIM`, `DICT_COUNT`, `ROLE_VAL` and `ROLE_BOUND` read constants or other fields (`readReg`). The build
cursor and the detector's transient state exist only while a command runs (R44, R58), and a command is one step (R256; log
entry 8). An entry of the dictionary or the maps that holds no value is not held (log entry 7). -/
structure State where
  /-- `CTRL`, bits 2:0 (R33). -/
  ctrl : BitVec 3
  /-- `CFG_BG`, bits 8:0 (R34). -/
  cfgBg : BitVec 9
  /-- `CFG_FG`, bits 8:0 (R35). -/
  cfgFg : BitVec 9
  /-- `CFG_MC`, bits 16:0 (R36). -/
  cfgMc : BitVec 17
  /-- `CFG_HINT`, bits 8:0 (R37). -/
  cfgHint : BitVec 9
  /-- `CFG_OFFSET`, bits 15:0 (R38). -/
  cfgOffset : BitVec 16
  /-- `CFG_ATTR` (R39). -/
  cfgAttr : BitVec 32
  /-- `CFG_SPRPAD`, bits 7:0 (R40). -/
  cfgSprPad : BitVec 8
  /-- `RASTER_DIM` (R41). -/
  rasterDim : BitVec 32
  /-- `RASTER_FMT`, bit 0 (R42). -/
  rasterFmt : BitVec 1
  /-- `STATUS` (R45). -/
  status : Status
  /-- `RESULT` (R56). -/
  result : Word
  /-- The role file (R46). -/
  roles : RoleFile
  /-- `ERR_CMD` (R57). -/
  errCmd : Word
  /-- `ERR_CELL` (R57). -/
  errCell : Word
  /-- `Dict[0 .. DICT_COUNT-1]` (R49). `DICT_COUNT` is its length: an entry at or above it holds no value. -/
  dict : List Block
  /-- `EMPTY_REC` (R51): `none` is `NONE = 1`, `IDX = 0`. -/
  emptyRec : Option Index
  /-- `Map`, `CMap` and `MapValid` (R52, R53): the written cells by index, indices strictly rising. A cell that is not listed
  has `MapValid = 0` and holds no value. -/
  cells : List (Nat × MapCell)
  /-- The block buffer (R48). -/
  buf : Vector Byte 64
  /-- `CAP_DICT`, the instance's `DICT_CAP` (R55). No step changes it. -/
  dictCap : Nat
  /-- `CAP_MAP`, the instance's `MAP_CAP` (R55). No step changes it. -/
  mapCap : Nat
  /-- The raster behind the read port (R71), the host's and read-only to the unit. -/
  raster : Memory
  /-- The model's own (log entry 3): what comes to the unit from outside, the next first. -/
  queue : List HostEvent
  /-- The model's own (log entry 3): the value that the last bus read returned to the host. -/
  busData : Word
deriving DecidableEq, Repr

/-- Why the machine stops. The unit's own faults are no stop: they are recorded in `STATUS`, and the machine goes on
(R225). -/
inductive Fault where
  /-- The event `connectRaster` lists a pixel at an address that no pixel has. Raised by `hostEvent`. Safe: such an image
  does not exist, since coordinates are 16 bits wide (R6). -/
  | noSuchPixel (address : Nat)
deriving DecidableEq, Repr

/-- What the model refuses. -/
inductive Refusal where
  /-- An instruction that has no meaning yet. Raised by `exec`; no arm raises it now. Safe: nothing runs. -/
  | notModelled (mnemonic : String)
  /-- A bus access that is not 32 bits wide (R75, I15). Raised by `hostEvent`. Safe: nothing happens. -/
  | narrowAccess (size : AccessSize)
  /-- A bus access at an offset that is no multiple of 4 (R75, I15). Raised by `hostEvent`. Safe: nothing happens. -/
  | unalignedAccess (off : Byte)
deriving DecidableEq, Repr

/-- The value of a `STATUS` with every flag clear (R250). -/
def Status.clear : Status :=
  { fault := false, err := 0#4, asw := false, ign := false, newEntry := false, blkV := false, blkMc := false,
    blkSpr := false, blkBlank := false }

/-- The role file with every role unbound (R250). -/
def RoleFile.unbound : RoleFile := { bg := none, mc1 := none, mc2 := none, uq := none }

/-- The machine right after reset (R250). The buffer's bytes are unspecified there and cannot be observed: zeros (log entry
4). The capacities are the instance's (log entry 1). No image is connected (log entry 2), and nothing is pending (log entry
3). -/
def State.reset : State :=
  { ctrl := 0#3, cfgBg := 0#9, cfgFg := 0#9, cfgMc := 0#17, cfgHint := 0#9, cfgOffset := 0#16,
    cfgAttr := 0x08070F00#32, cfgSprPad := 0#8,
    rasterDim := 0#32, rasterFmt := 0#1, status := Status.clear, result := 0#32, roles := RoleFile.unbound,
    errCmd := 0#32, errCell := 0xFFFFFFFF#32, dict := [], emptyRec := none, cells := [], buf := Vector.replicate 64 0#8,
    dictCap := Config.dictCap, mapCap := Config.mapCap, raster := [], queue := [], busData := 0#32 }

end Sys2Proof.Machine
end

