-- ==== Sys2Proof/Machine/Memory.lean ====
section
/-! DEFINITION. Sparse storage by address in one canonical form: the raster's memory, and the written cells of the maps. -/

namespace Sys2Proof.Machine

/-- The value listed at `k`, if any. -/
def sparseGet? {α : Type} : List (Nat × α) → Nat → Option α
  | [], _ => none
  | (a, v) :: m, k => if a = k then some v else sparseGet? m k

/-- `m` with `v` at `k`, addresses still rising. -/
def sparseSet {α : Type} : List (Nat × α) → Nat → α → List (Nat × α)
  | [], k, v => [(k, v)]
  | (a, u) :: m, k, v =>
    if k < a then (k, v) :: (a, u) :: m
    else if k = a then (k, v) :: m
    else (a, u) :: sparseSet m k v

/-- `m` with nothing at `k`. -/
def sparseErase {α : Type} (m : List (Nat × α)) (k : Nat) : List (Nat × α) :=
  m.filter fun c => c.1 != k

/-- The addresses are strictly rising. -/
def sparseSorted {α : Type} (m : List (Nat × α)) : Bool :=
  decide ((m.map Prod.fst).Pairwise (· < ·))

/-- What an unlisted pixel reads as: palette index 0 (DESIGN CHOICE, log entry 2). -/
def Memory.unlisted : Byte := 0#8

/-- How many addresses there are: coordinates are 16 bits wide (`DIM_W`, R6). -/
def Memory.size : Nat := 2 ^ 32

/-- The byte at an address. -/
def Memory.read (m : Memory) (a : Nat) : Byte := (sparseGet? m a).getD Memory.unlisted

/-- `m` with the byte `b` at `a`, in canonical form. -/
def Memory.write (m : Memory) (a : Nat) (b : Byte) : Memory :=
  if b = Memory.unlisted then sparseErase m a else sparseSet m a b

/-- The canonical form: addresses strictly rising and in range, no entry equal to what an unlisted address reads as. -/
def Memory.wf (m : Memory) : Bool :=
  sparseSorted m && m.all fun c => c.2 != Memory.unlisted && decide (c.1 < Memory.size)

/-- The memory that holds an image given as pixels in any order; of two entries for one pixel the later one counts. -/
def Memory.ofCells (pixels : List Host.Cell) : Memory :=
  pixels.foldl (fun m c => Memory.write m c.1 c.2) []

/-- The address of pixel `(x, y)` (log entry 2). -/
def pixelAddress (x y : Nat) : Nat := y * 65536 + x

/-- `RasterRead(x, y)`: the palette index at column `x` and row `y` (R71). It changes nothing (R72). -/
def rasterRead (s : State) (x y : Nat) : Byte := Memory.read s.raster (pixelAddress x y)

end Sys2Proof.Machine
end

