-- ==== Sys2Proof/Machine/Operands.lean ====
section
/-! DEFINITION. The fields of the configuration registers (R33-R42), the geometry of regions and cells (R95, R130, R180),
and how a command's value becomes `RESULT`. -/

namespace Sys2Proof.Machine

/-- An option register of the layout of `CFG_BG`, `CFG_FG` and `CFG_HINT`: a palette index in bits 7:0, valid when bit 8 is
1 (R34, R35, R37). -/
def optionOf (r : BitVec 9) : Option Byte := if r.getLsbD 8 then some (r.extractLsb' 0 8) else none

/-- The configured foreground, `CFG_FG.FG` when `CFG_FG.FG_V = 1` (R35). -/
def foreground (s : State) : Option Byte := optionOf s.cfgFg

/-- The configured multicolor pair `(MC1, MC2)` when `CFG_MC.MC_V = 1` (R36). -/
def multicolorPair (s : State) : Option (Byte × Byte) :=
  if s.cfgMc.getLsbD 16 then some (s.cfgMc.extractLsb' 0 8, s.cfgMc.extractLsb' 8 8) else none

/-- The background that the configuration gives: `CFG_BG`, else the hint, else none (R112, R151). -/
def backgroundDefault (s : State) : Option Byte := (optionOf s.cfgBg).or (optionOf s.cfgHint)

/-- `CTRL.MODE` (R33). -/
def ctrlMode (s : State) : PixelWidth := if s.ctrl.getLsbD 0 then .multicolor else .hires

/-- `CTRL.MARK_POL` (R33). -/
def markPolarity (s : State) : Bool := s.ctrl.getLsbD 2

/-- `CFG_ATTR.DEFAULT` (R39). -/
def attrDefault (s : State) : Byte := s.cfgAttr.extractLsb' 0 8

/-- `CFG_ATTR.MASK_H` (R39). -/
def attrMaskHires (s : State) : Byte := s.cfgAttr.extractLsb' 8 8

/-- `CFG_ATTR.MASK_M` (R39). -/
def attrMaskMulticolor (s : State) : Byte := s.cfgAttr.extractLsb' 16 8

/-- `CFG_ATTR.MARK` (R39). -/
def attrMark (s : State) : Byte := s.cfgAttr.extractLsb' 24 8

/-- `RASTER_DIM.W` (R41). -/
def rasterWidth (s : State) : Nat := (s.rasterDim.extractLsb' 0 16).toNat

/-- `RASTER_DIM.H` (R41). -/
def rasterHeight (s : State) : Nat := (s.rasterDim.extractLsb' 16 16).toNat

/-- `RASTER_FMT.INDEXED` (R42). -/
def rasterIndexed (s : State) : Bool := s.rasterFmt.getLsbD 0

/-- `MAP_DIM.MW`: the number of whole cells in a row (R54). -/
def mapWidth (s : State) : Nat := rasterWidth s / 8

/-- `MAP_DIM.MH`: the number of whole cells in a column (R54). -/
def mapHeight (s : State) : Nat := rasterHeight s / 8

/-- `DICT_COUNT` (R49). -/
def dictCount (s : State) : Nat := s.dict.length

/-- The effective global mode `EM` (R111). -/
def effectiveMode (s : State) : PixelWidth :=
  if (foreground s).isSome then .hires
  else if (multicolorPair s).isSome then .multicolor
  else ctrlMode s

/-- The width `w` of a region in pixels (R130). -/
def regionWidth : Context → Nat
  | .character => 8
  | .sprite => 24

/-- The height `h` of a region in pixels (R130). -/
def regionHeight : Context → Nat
  | .character => 8
  | .sprite => 21

/-- The bytes per row `R` of a block (R130). -/
def rowBytes : Context → Nat
  | .character => 1
  | .sprite => 3

/-- The length `L` of a block in bytes (R130). -/
def blockLength : Context → Nat
  | .character => 8
  | .sprite => 64

/-- The data bytes `D` of a block (R130). -/
def dataBytes : Context → Nat
  | .character => 8
  | .sprite => 63

/-- The bits of a pixel width, `pw` (R130). -/
def pixelBits : PixelWidth → Nat
  | .hires => 1
  | .multicolor => 2

/-- A region with top-left pixel `(x, y)` reaches outside the raster; the far corner does not wrap (R95, R223). -/
def regionOutside (s : State) (ctx : Context) (x y : Nat) : Bool :=
  decide (rasterWidth s < x + regionWidth ctx) || decide (rasterHeight s < y + regionHeight ctx)

/-- The map index `k` of cell `(cx, cy)` (R180). -/
def cellIndex (s : State) (cx cy : Nat) : Nat := cy * mapWidth s + cx

/-- The cells of the map in raster order (R189). -/
def cellsInRasterOrder (s : State) : List (Nat × Nat) :=
  (List.range (mapHeight s)).flatMap fun cy => (List.range (mapWidth s)).map fun cx => (cx, cy)

/-- `BLK_LEN` (R48). -/
def bufferLength (s : State) : Nat := if s.status.blkSpr then 64 else 8

/-- `Buf[j]` (R48). -/
def bufByte (buf : Vector Byte 64) (j : Nat) : Byte := (buf[j]?).getD 0#8

/-- `Buf[0..7]`, the dictionary key (R160). -/
def bufBlock (s : State) : Block :=
  #v[bufByte s.buf 0, bufByte s.buf 1, bufByte s.buf 2, bufByte s.buf 3, bufByte s.buf 4, bufByte s.buf 5,
    bufByte s.buf 6, bufByte s.buf 7]

/-- The block of eight zero bytes: the empty block (R163). -/
def zeroBlock : Block := Vector.replicate 8 0#8

/-- `zext_32({new, i[15:0]})`, the value of an insertion (R160, R181). -/
def insertionResult (i : Index) (isNew : Bool) : Word := (BitVec.ofBool isNew ++ i).setWidth 32

/-- `zext_32({BLK_BLANK, BLK_MC})`, the value of `ENCODE` (R131). -/
def encodeResult (st : Status) : Word :=
  (BitVec.ofBool st.blkBlank ++ BitVec.ofBool st.blkMc).setWidth 32

/-- `{before.NONE, 14'b0, swapped, before.IDX}`, the value of `PROMOTE_EMPTY` (R166). -/
def promoteResult (before : Option Index) (swapped : Bool) : Word :=
  (BitVec.ofBool before.isNone ++ 0#14 ++ BitVec.ofBool swapped ++ before.getD 0#16).setWidth 32

end Sys2Proof.Machine
end

