-- ==== Sys2Proof/Machine/Flags.lean ====
section
/-! DEFINITION. The flags: the word that `STATUS` reads as, the fault codes' numbers, and the conditions that set a flag. -/

namespace Sys2Proof.Machine

/-- The number of a fault code in `STATUS.ERR` (R220). -/
def faultNumber : FaultCode → BitVec 4
  | .capacity => 1#4
  | .format => 2#4
  | .incompleteData => 3#4
  | .illegalCommand => 4#4
  | .range => 5#4
  | .config => 6#4
  | .sequence => 7#4

/-- `STATUS` as it reads (R45): `BUSY` and the reserved bits are 0. -/
def statusWord (st : Status) : Word :=
  (BitVec.ofBool st.blkBlank ++ BitVec.ofBool st.blkSpr ++ BitVec.ofBool st.blkMc ++ BitVec.ofBool st.blkV ++
    BitVec.ofBool st.newEntry ++ BitVec.ofBool st.ign ++ BitVec.ofBool st.asw ++ st.err ++ 0#3 ++
    BitVec.ofBool st.fault).setWidth 32

/-- A block of context `ctx` in the buffer is blank: every data byte is zero, the pad byte not looked at (R139). -/
def blankBlock (ctx : Context) (buf : Vector Byte 64) : Bool :=
  (List.range (dataBytes ctx)).all fun j => bufByte buf j == 0#8

/-- The condition of the AddressSpaceWarning, a strict comparison with `ADDR_LIMIT` = 256 (R191). -/
def exceedsAddressSpace (total : Nat) : Bool := decide (256 < total)

/-- The flags of a buffered block (R132). -/
def blockFlags (st : Status) (ctx : Context) (width : PixelWidth) (buf : Vector Byte 64) : Status :=
  { st with blkV := true, blkSpr := ctx == .sprite, blkMc := width == .multicolor, blkBlank := blankBlock ctx buf }

/-- The flags after a data clear (R200). -/
def dataClearFlags (st : Status) : Status :=
  { st with blkV := false, blkSpr := false, blkMc := false, blkBlank := false, newEntry := false, asw := false }

/-- The flags after fault entry (R225). -/
def faultFlags (st : Status) (code : FaultCode) : Status := { st with fault := true, err := faultNumber code }

/-- The flags after the fault state is left (R201). -/
def faultFreeFlags (st : Status) : Status := { st with fault := false, err := 0#4, ign := false }

end Sys2Proof.Machine
end

