-- ==== Sys2Proof/Machine/Ops.lean ====
section
/-! DEFINITION. The operations that several commands share: fault entry and leaving the fault state, the checks a command
makes first, the updates of one piece of state, and the sub-operations that may raise. -/

namespace Sys2Proof.Machine

/-- `0xFFFFFFFF`, the cell of a fault that concerns no cell (R8). -/
def noCell : Word := 0xFFFFFFFF#32

/-- `raise Fault(code, cell)` during the command whose word is `w`: fault entry. What the command changed before remains,
and `RESULT` is not written (R225). -/
def raiseFault (w : Word) (code : FaultCode) (cell : Word) (s : State) : State :=
  { s with status := faultFlags s.status code, errCmd := w, errCell := cell }

/-- Leaving the fault state, which only `CLEAR` does (R201, R233). -/
def leaveFault (s : State) : State :=
  { s with status := faultFreeFlags s.status, errCmd := 0#32, errCell := noCell }

/-- A command that the fault state ignores (R227). -/
def ignoreCommand (s : State) : State := { s with status := { s.status with ign := true } }

/-- `RESULT <- v` (R56). -/
def setResult (v : Word) (s : State) : State := { s with result := v }

/-- `DataClear()`: the per-image structures are made fresh (R200). -/
def dataClear (s : State) : State :=
  { s with dict := [], emptyRec := none, cells := [], status := dataClearFlags s.status }

/-- One check of a command: whether it fails, and the fault it then raises. -/
structure Check where
  fails : Bool
  code : FaultCode
  cell : Word
deriving DecidableEq, Repr

/-- The first check that fails, in the order the command lists them (R228). -/
def firstFailing : List Check → Option Check
  | [] => none
  | c :: cs => if c.fails then some c else firstFailing cs

/-- What a sub-operation that may raise answers: a value and the state it leaves, or the fault it raises and the state that
the changes before the `raise` leave (R225). -/
inductive Attempt (α : Type) where
  | done (v : α) (s : State)
  | raised (code : FaultCode) (cell : Word) (s : State)
deriving DecidableEq, Repr

/-- A command whose word is `w`: its checks, then its body. Either may raise, and a fault is a next state (R225, R228). -/
def runCommand (w : Word) (checks : List Check) (s : State) (body : Attempt Unit) :
    Host.Outcome State Fault Refusal :=
  match firstFailing checks with
  | some c => .next (raiseFault w c.code c.cell s)
  | none =>
    match body with
    | .done _ t => .next t
    | .raised code cell t => .next (raiseFault w code cell t)

/-- `CfgCheck()`: both forcing options are set (R110). -/
def configCheck (s : State) : Check :=
  { fails := (foreground s).isSome && (multicolorPair s).isSome, code := .config, cell := noCell }

/-- Multicolor width is asked for while a foreground is set (R113, R131). -/
def widthCheck (s : State) (asksMulticolor : Bool) : Check :=
  { fails := asksMulticolor && (foreground s).isSome, code := .config, cell := noCell }

/-- The raster has no indexed palette (R221). -/
def formatCheck (s : State) : Check := { fails := !rasterIndexed s, code := .format, cell := noCell }

/-- A region reaches outside the raster (R223, case 1). -/
def regionCheck (s : State) (ctx : Context) (x y : Nat) : Check :=
  { fails := regionOutside s ctx x y, code := .range, cell := noCell }

/-- A cell is outside the map (R223, case 2). -/
def cellCheck (s : State) (cx cy : Nat) : Check :=
  { fails := decide (mapWidth s ≤ cx) || decide (mapHeight s ≤ cy), code := .range, cell := noCell }

end Sys2Proof.Machine
end

