-- ==== Sys2Proof/Machine/Dictionary.lean ====
section
/-! DEFINITION. The block dictionary (spec/43_dictionary.md) and the commands `LOOKUP_INSERT` and `PROMOTE_EMPTY`. -/

namespace Sys2Proof.Machine

/-- The index of the first entry that equals `b` on all 8 bytes, in insertion order (R160, R161). -/
def findBlock (b : Block) : List Block → Option Nat
  | [] => none
  | e :: rest => if e = b then some 0 else (findBlock b rest).map (· + 1)

/-- `STATUS.NEW <- v` (R160). -/
def setNewEntry (v : Bool) (s : State) : State := { s with status := { s.status with newEntry := v } }

/-- `b` is appended at `DICT_COUNT`, and the first all-zero block is recorded (R160, R163). -/
def appendBlock (b : Block) (s : State) : State :=
  { s with
    dict := s.dict ++ [b]
    emptyRec :=
      if b = zeroBlock ∧ s.emptyRec = none then some (BitVec.ofNat 16 s.dict.length) else s.emptyRec
    status := { s.status with newEntry := true } }

/-- `LookupOrInsert(b, cell)`: the index, and whether the block is new. A new block and a full dictionary raise
CapacityError, with nothing changed (R160, R162). -/
def lookupOrInsert (b : Block) (cell : Word) (s : State) : Attempt (Index × Bool) :=
  match findBlock b s.dict with
  | some i => .done (BitVec.ofNat 16 i, false) (setNewEntry false s)
  | none =>
    if s.dict.length = s.dictCap then .raised .capacity cell s
    else .done (BitVec.ofNat 16 s.dict.length, true) (appendBlock b s)

/-- The buffer holds no character block (R230). -/
def sequenceCheck (s : State) : Check :=
  { fails := !s.status.blkV || s.status.blkSpr, code := .sequence, cell := noCell }

/-- `LOOKUP_INSERT` (R160). -/
def execLookupInsert (s : State) : Host.Outcome State Fault Refusal :=
  runCommand (encode .lookupInsert) [sequenceCheck s] s
    (match lookupOrInsert (bufBlock s) noCell s with
    | .done v t => .done () (setResult (insertionResult v.1 v.2) t)
    | .raised code cell t => .raised code cell t)

/-- The value of a map cell after a promotion of `e`: 0 becomes `e`, `e` becomes 0, all else stays (R166). -/
def relabel (e v : Index) : Index := if v = 0#16 then e else if v = e then 0#16 else v

/-- Entries 0 and `e` change places (R166, R167). -/
def swapEntries (d : List Block) (e : Nat) : List Block :=
  match d[0]?, d[e]? with
  | some a, some b => (d.set 0 b).set e a
  | _, _ => d

/-- The empty block is moved from `e` to 0, and the written map cells are relabelled (R166). -/
def moveEmptyToFront (e : Index) (s : State) : State :=
  { s with
    cells := s.cells.map fun c => (c.1, { c.2 with idx := relabel e c.2.idx })
    dict := swapEntries s.dict e.toNat
    emptyRec := some 0#16 }

/-- There is an empty block at an index above 0 (R166). -/
def promotes (s : State) : Bool :=
  match s.emptyRec with
  | none => false
  | some e => e != 0#16

/-- `PromoteEmpty()` (R166). -/
def promoteEmpty (s : State) : State :=
  setResult (promoteResult s.emptyRec (promotes s))
    (if promotes s then moveEmptyToFront (s.emptyRec.getD 0#16) s else s)

/-- `PROMOTE_EMPTY` (R166). -/
def execPromoteEmpty (s : State) : Host.Outcome State Fault Refusal :=
  runCommand (encode .promoteEmpty) [] s (.done () (promoteEmpty s))

end Sys2Proof.Machine
end

