-- ==== Sys2Proof/Machine/Detect.lean ====
section
/-! DEFINITION. The mode detector (spec/42_mode_detect.md) and the command `DETECT`. -/

namespace Sys2Proof.Machine

/-- The pixel pairs at even offsets of a region, in scan order (R150). -/
def regionPairs (s : State) (x0 y0 w h : Nat) : List (Byte × Byte) :=
  (List.range h).flatMap fun y =>
    (List.range (w / 2)).map fun i =>
      (rasterRead s (x0 + 2 * i) (y0 + y), rasterRead s (x0 + 2 * i + 1) (y0 + y))

/-- One pixel of the scan: `none` rejects the block, else the candidate foreground after the pixel (R150). -/
def noteForeground (bg : Byte) (fg : Option Byte) (p : Byte) : Option (Option Byte) :=
  if p = bg then some fg
  else
    match fg with
    | none => some (some p)
    | some f => if p = f then some fg else none

/-- The scan of the pairs: false as soon as a second foreground appears, else whether some pair differs (R150). -/
def scanPairs (bg : Byte) : List (Byte × Byte) → Option Byte → Bool → Bool
  | [], _, differ => differ
  | (p0, p1) :: rest, fg, differ =>
    match noteForeground bg fg p0 with
    | none => false
    | some fg0 =>
      match noteForeground bg fg0 p1 with
      | none => false
      | some fg1 => scanPairs bg rest fg1 (differ || p0 != p1)

/-- The detector's background `bgD` (R151). -/
def detectorBackground (s : State) (x0 y0 : Nat) : Byte := (backgroundDefault s).getD (rasterRead s x0 y0)

/-- `Detect(x0, y0, w, h)`: treat the region as hires (R150). -/
def detectHires (s : State) (x0 y0 w h : Nat) : Bool :=
  scanPairs (detectorBackground s x0 y0) (regionPairs s x0 y0 w h) none false

/-- `DETECT` (R150). -/
def execDetect (ctx : Context) (x y : BitVec 12) (s : State) : Host.Outcome State Fault Refusal :=
  runCommand (encode (.detect ctx x y)) [configCheck s, formatCheck s, regionCheck s ctx x.toNat y.toNat] s
    (.done () (setResult
      (if detectHires s x.toNat y.toNat (regionWidth ctx) (regionHeight ctx) then 1#32 else 0#32) s))

end Sys2Proof.Machine
end

