-- ==== Sys2Proof/Machine/Roles.lean ====
section
/-! DEFINITION. The colour roles (spec/40_color_roles.md): the reset of the role file, the resolve function, and the
commands `ROLE_RESET` and `RESOLVE`. -/

namespace Sys2Proof.Machine

/-- The four roles (R46). -/
inductive RoleName where
  | bg
  | mc1
  | mc2
  | uq
deriving DecidableEq, Repr

/-- `Role[r]`. -/
def roleGet (f : RoleFile) : RoleName → Option Byte
  | .bg => f.bg
  | .mc1 => f.mc1
  | .mc2 => f.mc2
  | .uq => f.uq

/-- `Role[r] <- (1, p)`. -/
def roleBind (f : RoleFile) (r : RoleName) (p : Byte) : RoleFile :=
  match r with
  | .bg => { f with bg := some p }
  | .mc1 => { f with mc1 := some p }
  | .mc2 => { f with mc2 := some p }
  | .uq => { f with uq := some p }

/-- The role file that the configuration gives at the start of a block (R112). -/
def roleDefaults (s : State) : RoleFile :=
  { bg := backgroundDefault s
    mc1 := (multicolorPair s).map Prod.fst
    mc2 := (multicolorPair s).map Prod.snd
    uq := foreground s }

/-- The roles that take part at a width in a context, in priority order, each with its code (R114, R115). -/
def roleOrder : PixelWidth → Context → List (RoleName × BitVec 2)
  | .hires, _ => [(.bg, 0#2), (.uq, 1#2)]
  | .multicolor, .character => [(.bg, 0#2), (.mc1, 1#2), (.mc2, 2#2), (.uq, 3#2)]
  | .multicolor, .sprite => [(.bg, 0#2), (.mc1, 1#2), (.mc2, 3#2), (.uq, 2#2)]

/-- The code of `UQ`, which a pixel gets when every role is bound and none matches (R117). -/
def catchAllCode : PixelWidth → Context → BitVec 2
  | .hires, _ => 1#2
  | .multicolor, .character => 3#2
  | .multicolor, .sprite => 2#2

/-- Case 2 of R114, the learning resolver: the first bound role that holds `p`, else the first unbound role, which is bound
to `p`, else the catch-all. -/
def learnRole (w : PixelWidth) (ctx : Context) (p : Byte) (f : RoleFile) : BitVec 2 × RoleFile :=
  match (roleOrder w ctx).find? fun e => roleGet f e.1 == some p with
  | some e => (e.2, f)
  | none =>
    match (roleOrder w ctx).find? fun e => roleGet f e.1 == none with
    | some e => (e.2, roleBind f e.1 p)
    | none => (catchAllCode w ctx, f)

/-- `Resolve(p, w, ctx)`: the code, and the role file it leaves. Under a foreground override in hires no role is read or
bound (R114). -/
def resolvePixel (fg : Option Byte) (p : Byte) (w : PixelWidth) (ctx : Context) (f : RoleFile) : BitVec 2 × RoleFile :=
  match w, fg with
  | .hires, some v => (if p = v then 1#2 else 0#2, f)
  | .hires, none => learnRole .hires ctx p f
  | .multicolor, _ => learnRole .multicolor ctx p f

/-- `ROLE_RESET` (R112). -/
def execRoleReset (s : State) : Host.Outcome State Fault Refusal :=
  runCommand (encode .roleReset) [configCheck s] s (.done () { s with roles := roleDefaults s })

/-- The body of `RESOLVE` (R113). -/
def resolveBody (ctx : Context) (width : PixelWidth) (pix : Byte) (s : State) : State :=
  setResult ((resolvePixel (foreground s) pix width ctx s.roles).1.setWidth 32)
    { s with roles := (resolvePixel (foreground s) pix width ctx s.roles).2 }

/-- `RESOLVE` (R113). -/
def execResolve (ctx : Context) (width : PixelWidth) (pix : Byte) (s : State) : Host.Outcome State Fault Refusal :=
  runCommand (encode (.resolve ctx width pix)) [configCheck s, widthCheck s (width == .multicolor)] s
    (.done () (resolveBody ctx width pix s))

end Sys2Proof.Machine
end

