-- ==== Sys2Proof/Machine/Encoder.lean ====
section
/-! DEFINITION. The pixel encoder (spec/41_pixel_encode.md) and the command `ENCODE`. -/

namespace Sys2Proof.Machine

/-- The pixels that a block of a context resolves at a width, as offsets `(x, y)` in scan order: rows from the top, left to
right, and of a multicolor pair only the left pixel (R134, R135). -/
def scanOrder (ctx : Context) (width : PixelWidth) : List (Nat × Nat) :=
  (List.range (regionHeight ctx)).flatMap fun y =>
    (List.range (regionWidth ctx / pixelBits width)).map fun i => (i * pixelBits width, y)

/-- `Buf[j] <- Buf[j] | (c << (8 - pw - (x mod 8)))` with `j = y · R + (x div 8)` (R73, R74, R132). -/
def packCode (ctx : Context) (width : PixelWidth) (x y : Nat) (c : BitVec 2) (buf : Vector Byte 64) : Vector Byte 64 :=
  buf.setIfInBounds (y * rowBytes ctx + x / 8)
    (bufByte buf (y * rowBytes ctx + x / 8) ||| (c.setWidth 8 <<< (8 - pixelBits width - x % 8)))

/-- The buffer before the scan: the block's bytes zero, byte 63 of a sprite the pad (R132, R133).
The bytes above a character's stay (DEDUCED, safe, log entry 12). -/
def freshBuffer (ctx : Context) (pad : Byte) (buf : Vector Byte 64) : Vector Byte 64 :=
  match ctx with
  | .character => (List.range 8).foldl (fun b j => b.setIfInBounds j 0#8) buf
  | .sprite => (Vector.replicate 64 0#8).setIfInBounds 63 pad

/-- One pixel of the scan: resolve it, then pack its code (R132). -/
def scanPixel (s : State) (x0 y0 : Nat) (ctx : Context) (width : PixelWidth) (acc : RoleFile × Vector Byte 64)
    (p : Nat × Nat) : RoleFile × Vector Byte 64 :=
  ((resolvePixel (foreground s) (rasterRead s (x0 + p.1) (y0 + p.2)) width ctx acc.1).2,
    packCode ctx width p.1 p.2
      (resolvePixel (foreground s) (rasterRead s (x0 + p.1) (y0 + p.2)) width ctx acc.1).1 acc.2)

/-- The role file and the buffer that the scan of a block leaves (R132). -/
def scanBlock (s : State) (x0 y0 : Nat) (ctx : Context) (width : PixelWidth) : RoleFile × Vector Byte 64 :=
  (scanOrder ctx width).foldl (scanPixel s x0 y0 ctx width) (roleDefaults s, freshBuffer ctx s.cfgSprPad s.buf)

/-- `EncodeBlock(x0, y0, ctx, width)` (R132). -/
def encodeBlock (x0 y0 : Nat) (ctx : Context) (width : PixelWidth) (s : State) : State :=
  { s with
    roles := (scanBlock s x0 y0 ctx width).1
    buf := (scanBlock s x0 y0 ctx width).2
    status := blockFlags s.status ctx width (scanBlock s x0 y0 ctx width).2 }

/-- The width that a block gets when none is asked for: hires in a hires image, else as the detector says (R131, R182). -/
def autoWidth (s : State) (x0 y0 : Nat) (ctx : Context) : PixelWidth :=
  match effectiveMode s with
  | .hires => .hires
  | .multicolor => if detectHires s x0 y0 (regionWidth ctx) (regionHeight ctx) then .hires else .multicolor

/-- The width of the block that `ENCODE` encodes (R131). -/
def encodeWidth (s : State) (wsel : WidthSel) (x0 y0 : Nat) (ctx : Context) : PixelWidth :=
  match wsel with
  | .auto => autoWidth s x0 y0 ctx
  | .hires => .hires
  | .multicolor => .multicolor
  | .reserved => autoWidth s x0 y0 ctx

/-- The body of `ENCODE` (R131). -/
def encodeBody (ctx : Context) (wsel : WidthSel) (x0 y0 : Nat) (s : State) : State :=
  setResult (encodeResult (encodeBlock x0 y0 ctx (encodeWidth s wsel x0 y0 ctx) s).status)
    (encodeBlock x0 y0 ctx (encodeWidth s wsel x0 y0 ctx) s)

/-- The reserved `WSEL = 11` is an illegal command, before every other check (R97, R224, R228). The decoder refuses that word,
so no run reaches this check (DEDUCED, safe, log entry 10). -/
def wselCheck (wsel : WidthSel) : Check := { fails := wsel == .reserved, code := .illegalCommand, cell := noCell }

/-- `ENCODE` (R131). -/
def execEncode (ctx : Context) (wsel : WidthSel) (x y : BitVec 12) (s : State) : Host.Outcome State Fault Refusal :=
  runCommand (encode (.encode ctx wsel x y))
    [wselCheck wsel, configCheck s, widthCheck s (wsel == .multicolor), formatCheck s,
      regionCheck s ctx x.toNat y.toNat] s
    (.done () (encodeBody ctx wsel x.toNat y.toNat s))

end Sys2Proof.Machine
end

