-- ==== Sys2Proof/Machine/Charmap.lean ====
section
/-! DEFINITION. The cell sequencer (spec/44_charmap.md) and the commands `BUILD_CELL`, `BUILD_CHARMAP` and `FINALIZE`. -/

namespace Sys2Proof.Machine

/-- The marker is set: in a multicolor image, on the hires blocks when `MARK_POL = 0` and on the multicolor ones when it is 1
(R184, R185). -/
def markerSet (s : State) (em : PixelWidth) (hb : Bool) : Bool := em == .multicolor && (hb != markPolarity s)

/-- `Attr(em, hb)`, from the role file of the block just encoded (R184). -/
def attributeByte (s : State) (em : PixelWidth) (hb : Bool) : Byte :=
  ((s.roles.uq.getD (attrDefault s)) &&&
      (match em with
      | .hires => attrMaskHires s
      | .multicolor => attrMaskMulticolor s)) |||
    (if markerSet s em hb then attrMark s else 0#8)

/-- `Map[k] <- i`, `CMap[k] <- a`, `MapValid[k] <- 1` (R182). -/
def writeCell (k : Nat) (c : MapCell) (s : State) : State := { s with cells := sparseSet s.cells k c }

/-- The encode step of `CellStep`: the cell's block is in the buffer (R182). Its flags are written as by `ENCODE` (DEDUCED, safe,
log entry 11). -/
def encodeCell (cx cy : Nat) (s : State) : State :=
  encodeBlock (8 * cx) (8 * cy) .character (autoWidth s (8 * cx) (8 * cy) .character) s

/-- `CellStep(cx, cy, k)` (R182). A dictionary CapacityError leaves the encoded block and its roles, and no cell (R193). -/
def cellStep (cx cy k : Nat) (s : State) : Attempt (Index × Bool) :=
  match lookupOrInsert (bufBlock (encodeCell cx cy s)) (BitVec.ofNat 32 k) (encodeCell cx cy s) with
  | .raised code cell t => .raised code cell t
  | .done v t =>
    .done v
      (writeCell k
        { idx := v.1
          attr := attributeByte t (effectiveMode s) (autoWidth s (8 * cx) (8 * cy) .character == .hires) } t)

/-- The map cell is beyond the map's capacity (R181). -/
def mapIndexCheck (s : State) (k : Nat) : Check :=
  { fails := decide (s.mapCap ≤ k), code := .capacity, cell := BitVec.ofNat 32 k }

/-- `BUILD_CELL` (R181). -/
def execBuildCell (cx cy : BitVec 12) (s : State) : Host.Outcome State Fault Refusal :=
  runCommand (encode (.buildCell cx cy))
    [configCheck s, formatCheck s, cellCheck s cx.toNat cy.toNat, mapIndexCheck s (cellIndex s cx.toNat cy.toNat)] s
    (match cellStep cx.toNat cy.toNat (cellIndex s cx.toNat cy.toNat) s with
    | .done v t => .done () (setResult (insertionResult v.1 v.2) t)
    | .raised code cell t => .raised code cell t)

/-- `CellStep` for each cell of a list, up to the first that raises: the build cursor runs over the list (R44, R188). -/
def buildCells : List (Nat × Nat) → State → Attempt Unit
  | [], s => .done () s
  | (cx, cy) :: rest, s =>
    match cellStep cx cy (cellIndex s cx cy) s with
    | .done _ t => buildCells rest t
    | .raised code cell t => .raised code cell t

/-- `STATUS.ASW` is set when the count with the offset exceeds the address space, and never cleared here (R190, R191). -/
def testAddressSpace (s : State) : State :=
  { s with
    status :=
      { s.status with asw := s.status.asw || exceedsAddressSpace (dictCount s + s.cfgOffset.toNat) } }

/-- `Finalize()` (R190). -/
def finalizeImage (s : State) : State :=
  setResult (BitVec.ofNat 32 (dictCount (promoteEmpty s) + s.cfgOffset.toNat)) (testAddressSpace (promoteEmpty s))

/-- The map does not hold the whole raster (R188). -/
def mapSizeCheck (s : State) : Check :=
  { fails := decide (s.mapCap < mapWidth s * mapHeight s), code := .capacity, cell := noCell }

/-- `BUILD_CHARMAP` (R188). -/
def execBuildCharmap (s : State) : Host.Outcome State Fault Refusal :=
  runCommand (encode .buildCharmap) [configCheck s, formatCheck s, mapSizeCheck s] s
    (match buildCells (cellsInRasterOrder s) (dataClear s) with
    | .done _ t => .done () (finalizeImage t)
    | .raised code cell t => .raised code cell t)

/-- `FINALIZE` (R190). -/
def execFinalize (s : State) : Host.Outcome State Fault Refusal :=
  runCommand (encode .finalize) [] s (.done () (finalizeImage s))

end Sys2Proof.Machine
end

