-- ==== Sys2Proof/Machine/HostAccess.lean ====
section
/-! DEFINITION. The commands by which the host starts an image and reads results (spec/45_host_access.md): `CLEAR` and the
four forms of `READ`. -/

namespace Sys2Proof.Machine

/-- The body of `CLEAR`: a data clear, the fault state left, `RESULT` 0 and every role unbound (R201). -/
def clearBody (s : State) : State :=
  { leaveFault (dataClear s) with result := 0#32, roles := RoleFile.unbound }

/-- `CLEAR` (R201). -/
def execClear (s : State) : Host.Outcome State Fault Refusal :=
  runCommand (encode .clear) [] s (.done () (clearBody s))

/-- A read of an entry that holds no value (R202, R223 case 3). -/
def valueCheck (holds : Bool) : Check := { fails := !holds, code := .range, cell := noCell }

/-- `Dict[i][j]`, if that entry holds a value and `j` is below 8 (R202). -/
def dictByte? (s : State) (i j : Nat) : Option Byte := s.dict[i]?.bind fun b => b[j]?

/-- `Map[k]` and `CMap[k]`, if `k` is below `MAP_CAP` and `MapValid[k] = 1` (R202). -/
def mapCell? (s : State) (k : Nat) : Option MapCell :=
  match sparseGet? s.cells k with
  | some c => if k < s.mapCap then some c else none
  | none => none

/-- `Buf[j]`, if the buffer holds a block and `j` is below its length (R202). -/
def bufByte? (s : State) (j : Nat) : Option Byte :=
  if s.status.blkV && decide (j < bufferLength s) then some (bufByte s.buf j) else none

/-- A `READ` whose word is `w`: `RESULT` takes the value, and an entry that holds none raises RangeError (R202). -/
def runRead (w : Word) (v : Option Word) (s : State) : Host.Outcome State Fault Refusal :=
  runCommand w [valueCheck v.isSome] s (.done () (setResult (v.getD 0#32) s))

/-- `READ.DICT` (R202). -/
def execReadDict (idx : Index) (byte : Byte) (s : State) : Host.Outcome State Fault Refusal :=
  runRead (encode (.readDict idx byte)) ((dictByte? s idx.toNat byte.toNat).map fun b => b.setWidth 32) s

/-- `READ.MAP`: the offset is added at the read, without wrap (R202). -/
def execReadMap (idx : Index) (s : State) : Host.Outcome State Fault Refusal :=
  runRead (encode (.readMap idx))
    ((mapCell? s idx.toNat).map fun c => c.idx.setWidth 32 + s.cfgOffset.setWidth 32) s

/-- `READ.CMAP` (R202). -/
def execReadCmap (idx : Index) (s : State) : Host.Outcome State Fault Refusal :=
  runRead (encode (.readCmap idx)) ((mapCell? s idx.toNat).map fun c => c.attr.setWidth 32) s

/-- `READ.BUF` (R202). -/
def execReadBuf (byte : Byte) (s : State) : Host.Outcome State Fault Refusal :=
  runRead (encode (.readBuf byte)) ((bufByte? s byte.toNat).map fun b => b.setWidth 32) s

end Sys2Proof.Machine
end

