-- ==== Sys2Proof/Machine/Dispatch.lean ====
section
/-! DEFINITION. The meaning of each command: one arm per row of the opcode map (R96). -/

namespace Sys2Proof.Machine

def exec (i : Instr) (s : State) : Host.Outcome State Fault Refusal :=
  match i with
  | .clear => Sys2Proof.Machine.execClear s
  | .roleReset => Sys2Proof.Machine.execRoleReset s
  | .resolve ctx width pix => Sys2Proof.Machine.execResolve ctx width pix s
  | .detect ctx x y => Sys2Proof.Machine.execDetect ctx x y s
  | .encode ctx wsel x y => Sys2Proof.Machine.execEncode ctx wsel x y s
  | .lookupInsert => Sys2Proof.Machine.execLookupInsert s
  | .promoteEmpty => Sys2Proof.Machine.execPromoteEmpty s
  | .buildCell cx cy => Sys2Proof.Machine.execBuildCell cx cy s
  | .buildCharmap => Sys2Proof.Machine.execBuildCharmap s
  | .finalize => Sys2Proof.Machine.execFinalize s
  | .readDict idx byte => Sys2Proof.Machine.execReadDict idx byte s
  | .readMap idx => Sys2Proof.Machine.execReadMap idx s
  | .readCmap idx => Sys2Proof.Machine.execReadCmap idx s
  | .readBuf byte => Sys2Proof.Machine.execReadBuf byte s

end Sys2Proof.Machine
end

