-- ==== Sys2Proof/Machine/Registers.lean ====
section
/-! DEFINITION. The register map (R32): which register an offset names, what each reads as (R204), and what a write to each
does to its fields (R205). A write to `CMD` issues a command and is in Machine/Bus.lean. -/

namespace Sys2Proof.Machine

/-- The registers of R32. -/
inductive Reg where
  | id
  | ctrl
  | cfgBg
  | cfgFg
  | cfgMc
  | cfgHint
  | cfgOffset
  | cfgAttr
  | cfgSprPad
  | rasterDim
  | rasterFmt
  | cmd
  | status
  | result
  | dictCount
  | emptyRec
  | roleVal
  | roleBound
  | errCmd
  | errCell
  | mapDim
  | capDict
  | capMap
  /-- `0x5C` .. `0xFC` (R60). -/
  | reserved
deriving DecidableEq, Repr

/-- The register at the word offset `n`, the byte offset divided by 4 (R32). -/
def regAt (n : Nat) : Reg :=
  match n with
  | 0 => .id
  | 1 => .ctrl
  | 2 => .cfgBg
  | 3 => .cfgFg
  | 4 => .cfgMc
  | 5 => .cfgHint
  | 6 => .cfgOffset
  | 7 => .cfgAttr
  | 8 => .cfgSprPad
  | 9 => .rasterDim
  | 10 => .rasterFmt
  | 11 => .cmd
  | 12 => .status
  | 13 => .result
  | 14 => .dictCount
  | 15 => .emptyRec
  | 16 => .roleVal
  | 17 => .roleBound
  | 18 => .errCmd
  | 19 => .errCell
  | 20 => .mapDim
  | 21 => .capDict
  | 22 => .capMap
  | _ => .reserved

/-- The value of `ID`, the ASCII bytes "S2A1" (R31). -/
def identity : Word := 0x53324131#32

/-- `EMPTY_REC` as it reads: `NONE` in bit 31, `IDX` in bits 15:0 (R51). -/
def emptyRecWord (e : Option Index) : Word :=
  (BitVec.ofBool e.isNone ++ 0#15 ++ e.getD 0#16).setWidth 32

/-- `ROLE_VAL` as it reads: `UQ`, `MC2`, `MC1`, `BG` from the top, an unbound role 0 (R46, R47). -/
def roleValWord (f : RoleFile) : Word :=
  (f.uq.getD 0#8 ++ f.mc2.getD 0#8 ++ f.mc1.getD 0#8 ++ f.bg.getD 0#8).setWidth 32

/-- `ROLE_BOUND` as it reads (R47). -/
def roleBoundWord (f : RoleFile) : Word :=
  (BitVec.ofBool f.uq.isSome ++ BitVec.ofBool f.mc2.isSome ++ BitVec.ofBool f.mc1.isSome ++
    BitVec.ofBool f.bg.isSome).setWidth 32

/-- What a register reads as (R204). Reserved bits, reserved offsets and `CMD` read 0. -/
def readReg (r : Reg) (s : State) : Word :=
  match r with
  | .id => identity
  | .ctrl => s.ctrl.setWidth 32
  | .cfgBg => s.cfgBg.setWidth 32
  | .cfgFg => s.cfgFg.setWidth 32
  | .cfgMc => s.cfgMc.setWidth 32
  | .cfgHint => s.cfgHint.setWidth 32
  | .cfgOffset => s.cfgOffset.setWidth 32
  | .cfgAttr => s.cfgAttr
  | .cfgSprPad => s.cfgSprPad.setWidth 32
  | .rasterDim => s.rasterDim
  | .rasterFmt => s.rasterFmt.setWidth 32
  | .cmd => 0#32
  | .status => statusWord s.status
  | .result => s.result
  | .dictCount => BitVec.ofNat 32 (dictCount s)
  | .emptyRec => emptyRecWord s.emptyRec
  | .roleVal => roleValWord s.roles
  | .roleBound => roleBoundWord s.roles
  | .errCmd => s.errCmd
  | .errCell => s.errCell
  | .mapDim => (BitVec.ofNat 16 (mapHeight s) ++ BitVec.ofNat 16 (mapWidth s)).setWidth 32
  | .capDict => BitVec.ofNat 32 s.dictCap
  | .capMap => BitVec.ofNat 32 s.mapCap
  | .reserved => 0#32

/-- What a write does to a register's fields: an RW register takes its defined bits, and an RO or reserved one nothing
(R32, R205). `CMD` holds nothing, and what a write to it does is `issue`. -/
def writeReg (r : Reg) (v : Word) (s : State) : State :=
  match r with
  | .ctrl => { s with ctrl := v.setWidth 3 }
  | .cfgBg => { s with cfgBg := v.setWidth 9 }
  | .cfgFg => { s with cfgFg := v.setWidth 9 }
  | .cfgMc => { s with cfgMc := v.setWidth 17 }
  | .cfgHint => { s with cfgHint := v.setWidth 9 }
  | .cfgOffset => { s with cfgOffset := v.setWidth 16 }
  | .cfgAttr => { s with cfgAttr := v }
  | .cfgSprPad => { s with cfgSprPad := v.setWidth 8 }
  | .rasterDim => { s with rasterDim := v }
  | .rasterFmt => { s with rasterFmt := v.setWidth 1 }
  | .id => s
  | .cmd => s
  | .status => s
  | .result => s
  | .dictCount => s
  | .emptyRec => s
  | .roleVal => s
  | .roleBound => s
  | .errCmd => s
  | .errCell => s
  | .mapDim => s
  | .capDict => s
  | .capMap => s
  | .reserved => s

end Sys2Proof.Machine
end

