-- ==== Sys2Proof/Machine/Bus.lean ====
section
/-! DEFINITION. What reaches the unit from outside: command issue (R227), bus reads and writes (R204, R205), the raster
connection (R252) and the hardware reset (R250). -/

namespace Sys2Proof.Machine

/-- `Issue(w)`, the command dispatcher. While `FAULT = 1` every command but `CLEAR` is ignored; an illegal word raises
IllegalCommand; every other word runs its command (R224, R227; DEDUCED, safe, log entry 9). -/
def issue (w : Word) (s : State) : Host.Outcome State Fault Refusal :=
  if s.status.fault then
    if w = 0#32 then exec .clear s else .next (ignoreCommand s)
  else
    match decode w with
    | .illegal _ => .next (raiseFault w .illegalCommand noCell s)
    | .legal i => exec i s

/-- The register at a byte offset (R32). -/
def regOfOffset (off : Byte) : Reg := regAt (off.toNat / 4)

/-- `BusRead(off)` returns a value to the host and changes nothing in the unit (R204). -/
def busRead (off : Byte) (s : State) : State := { s with busData := readReg (regOfOffset off) s }

/-- `BusWrite(off, v)` (R205). -/
def busWrite (off : Byte) (v : Word) (s : State) : Host.Outcome State Fault Refusal :=
  match regOfOffset off with
  | .cmd => issue v s
  | r => .next (writeReg r v s)

/-- The unit after a hardware reset: every register and array as R250 says. The instance's capacities, the host's raster and
what is pending outside are not the unit's to reset (DEDUCED, safe, log entry 6). -/
def hardReset (s : State) : State :=
  { State.reset with
    dictCap := s.dictCap, mapCap := s.mapCap, raster := s.raster, queue := s.queue, busData := s.busData }

/-- A bus access that the spec defines: 32 bits wide, at a multiple of 4. Any other is refused (R75, I15; safe,
log entry 5). -/
def checkedAccess (size : AccessSize) (off : Byte) (o : Host.Outcome State Fault Refusal) :
    Host.Outcome State Fault Refusal :=
  if size ≠ .word then .refused (.narrowAccess size)
  else if off.toNat % 4 ≠ 0 then .refused (.unalignedAccess off)
  else o

/-- The host connects an image to the raster port (R252 step 1). A pixel outside the address space does not exist. -/
def connectRaster (pixels : List Host.Cell) (s : State) : Host.Outcome State Fault Refusal :=
  match pixels.find? fun c => decide (Memory.size ≤ c.1) with
  | some c => .fault (.noSuchPixel c.1)
  | none => .next { s with raster := Memory.ofCells pixels }

/-- One event from outside. -/
def hostEvent (e : HostEvent) (s : State) : Host.Outcome State Fault Refusal :=
  match e with
  | .read size off => checkedAccess size off (.next (busRead off s))
  | .write size off v => checkedAccess size off (busWrite off v s)
  | .connectRaster pixels => connectRaster pixels s
  | .hardReset => .next (hardReset s)

end Sys2Proof.Machine
end

