-- ==== Sys2Proof/Machine/Step.lean ====
section
/-! DEFINITION. One step: the next event from outside reaches the unit and is dealt with whole (R256). -/

namespace Sys2Proof.Machine

/-- One step. With nothing pending the unit is idle and holds its state (R240, R251). -/
def step (s : State) : Host.Outcome State Fault Refusal :=
  match s.queue with
  | [] => .next s
  | e :: rest => hostEvent e { s with queue := rest }

/-- `s` with the host's next action a 32-bit write of the word `w` to `CMD` (offset `0x2C`), the only way a command comes to
the unit (R43, R251; log entry 3). -/
def State.withFetchWord (s : State) (nbits w : Nat) : State :=
  { s with queue := .write .word 0x2C#8 (BitVec.ofNat 32 (w % 2 ^ nbits)) :: s.queue }

end Sys2Proof.Machine
end

