-- ==== Sys2Proof/Machine/Assembler.lean ====
section
/-! DEFINITION. The host's side of the interface: the assembler syntax (R99), the pseudo-instructions as bus accesses (R100),
and the bytes the host emits from what the unit holds (R192, R203). No step of the machine uses this file. -/

namespace Sys2Proof.Machine

/-- `.chr` and `.spr` (R99). -/
def contextSuffix : Context → String
  | .character => ".chr"
  | .sprite => ".spr"

/-- `.hi` and `.mc` (R99). -/
def widthSuffix : PixelWidth → String
  | .hires => ".hi"
  | .multicolor => ".mc"

/-- `.auto`, `.hi` and `.mc`. The reserved value has no spelling (R99). -/
def widthSelSuffix : WidthSel → Option String
  | .auto => some ".auto"
  | .hires => some ".hi"
  | .multicolor => some ".mc"
  | .reserved => none

/-- Two operands in decimal, separated by a comma (R99). -/
def operandPair (a b : Nat) : String := " " ++ toString a ++ ", " ++ toString b

/-- A command in the assembler syntax of R99, operands in decimal. -/
def assemblerText : Instr → Option String
  | .clear => some "CLEAR"
  | .roleReset => some "ROLE_RESET"
  | .resolve ctx width pix => some ("RESOLVE" ++ contextSuffix ctx ++ widthSuffix width ++ " " ++ toString pix.toNat)
  | .detect ctx x y => some ("DETECT" ++ contextSuffix ctx ++ operandPair x.toNat y.toNat)
  | .encode ctx wsel x y =>
    (widthSelSuffix wsel).map fun t => "ENCODE" ++ contextSuffix ctx ++ t ++ operandPair x.toNat y.toNat
  | .lookupInsert => some "LOOKUP_INSERT"
  | .promoteEmpty => some "PROMOTE_EMPTY"
  | .buildCell cx cy => some ("BUILD_CELL" ++ operandPair cx.toNat cy.toNat)
  | .buildCharmap => some "BUILD_CHARMAP"
  | .finalize => some "FINALIZE"
  | .readDict idx byte => some ("READ.DICT" ++ operandPair idx.toNat byte.toNat)
  | .readMap idx => some ("READ.MAP " ++ toString idx.toNat)
  | .readCmap idx => some ("READ.CMAP " ++ toString idx.toNat)
  | .readBuf byte => some ("READ.BUF " ++ toString byte.toNat)

/-- `WR off, v` (R99). -/
def busWR (off : Byte) (v : Word) : HostEvent := .write .word off v

/-- `RD off` (R99). -/
def busRD (off : Byte) : HostEvent := .read .word off

/-- A command mnemonic means `WR 0x2C, word` (R99). -/
def command (i : Instr) : HostEvent := busWR 0x2C (encode i)

/-- `ENCODE_CHAR x, y` (R100). -/
def encodeCharPseudo (x y : BitVec 12) : HostEvent := command (.encode .character .auto x y)

/-- `ENCODE_SPRITE x, y` (R100). -/
def encodeSpritePseudo (x y : BitVec 12) : HostEvent := command (.encode .sprite .auto x y)

/-- `SET_BG v` and `NO_BG` (R100). -/
def setBgPseudo (v : Option Byte) : HostEvent := busWR 0x08 ((v.map fun b => 0x100#32 ||| b.setWidth 32).getD 0)

/-- `SET_FG v` and `NO_FG` (R100). -/
def setFgPseudo (v : Option Byte) : HostEvent := busWR 0x0C ((v.map fun b => 0x100#32 ||| b.setWidth 32).getD 0)

/-- `SET_MC a, b` and `NO_MC` (R100). -/
def setMcPseudo (v : Option (Byte × Byte)) : HostEvent :=
  busWR 0x10 ((v.map fun p => 0x10000#32 ||| (p.2 ++ p.1).setWidth 32).getD 0)

/-- `SET_HINT v` and `NO_HINT` (R100). -/
def setHintPseudo (v : Option Byte) : HostEvent := busWR 0x14 ((v.map fun b => 0x100#32 ||| b.setWidth 32).getD 0)

/-- `SET_RASTER w, h` (R100). -/
def setRasterPseudo (w h : BitVec 16) : List HostEvent :=
  [busWR 0x24 ((h ++ w).setWidth 32), busWR 0x28 1]

/-- `POLL` (R100). -/
def pollPseudo : HostEvent := busRD 0x30

/-- What the host emits of an image: nothing of one that a fault has aborted, which it discards (R226). -/
def ofValidImage {α : Type} (s : State) (v : Option α) : Option α := if s.status.fault then none else v

/-- The character-map byte the host emits for cell `k`: the low 8 bits of the raw index with the offset (R192). -/
def emittedMapByte (s : State) (k : Nat) : Option Byte :=
  ofValidImage s ((sparseGet? s.cells k).map fun c => (c.idx + s.cfgOffset).setWidth 8)

/-- The attribute byte for cell `k` that a host emitting the attribute plane emits (R203). DESIGN CHOICE (log entry 17): it is
given whatever `CTRL.ATTR_EN` is. The host reads that bit to decide whether to emit the plane (R33, R187); that decision is
outside the unit and not modelled. -/
def emittedAttribute (s : State) (k : Nat) : Option Byte :=
  ofValidImage s ((sparseGet? s.cells k).map fun c => c.attr)

/-- The character set the host emits: every byte of every entry (R203). -/
def emittedCharset (s : State) : Option (List Byte) :=
  ofValidImage s (some (s.dict.flatMap fun b => b.toList))

end Sys2Proof.Machine
end

