-- ==== Sys2Proof/Safety.lean ====
section
/-! DEFINITION. What a good state of the unit is, in the terms the claims use. -/

namespace Sys2Proof.Machine

/-- The capacities are within the bounds of R6. -/
def capsLegal (s : State) : Prop := 1 ≤ s.dictCap ∧ s.dictCap ≤ 65536 ∧ 1 ≤ s.mapCap ∧ s.mapCap ≤ 65536

/-- The dictionary is within its capacity (R49), and no two entries are byte-equal (R50, invariant 1). -/
def dictLegal (s : State) : Prop := s.dict.length ≤ s.dictCap ∧ s.dict.Nodup

/-- `EMPTY_REC` names the all-zero entry, and says none exactly when there is none (R50, invariant 4). -/
def emptyRecLegal (s : State) : Prop :=
  match s.emptyRec with
  | none => zeroBlock ∉ s.dict
  | some e => s.dict[e.toNat]? = some zeroBlock

/-- The written cells are in canonical form, below the map's capacity, and each names a dictionary entry (R52). -/
def cellsLegal (s : State) : Prop :=
  sparseSorted s.cells = true ∧ ∀ c ∈ s.cells, c.1 < s.mapCap ∧ c.2.idx.toNat < s.dict.length

/-- The fault record of a state without a fault is the one `CLEAR` leaves, and a fault has one of the codes that the unit
raises (R45, R57, R220, R222). -/
def faultLegal (s : State) : Prop :=
  if s.status.fault then
    ∃ code : FaultCode, code ≠ .incompleteData ∧ s.status.err = faultNumber code
  else s.status.err = 0 ∧ s.status.ign = false ∧ s.errCmd = 0 ∧ s.errCell = noCell

/-- The context of the block in the buffer (R45). -/
def bufferedContext (s : State) : Context := if s.status.blkSpr then .sprite else .character

/-- The flags of the buffer: without a block all are 0, and with one `BLK_BLANK` says whether its data bytes are all zero
(R45, R139). -/
def blockLegal (s : State) : Prop :=
  if s.status.blkV then s.status.blkBlank = blankBlock (bufferedContext s) s.buf
  else s.status.blkSpr = false ∧ s.status.blkMc = false ∧ s.status.blkBlank = false

/-- A good state. It holds at reset, and every step keeps it. -/
structure Inv (s : State) : Prop where
  caps : capsLegal s
  dict : dictLegal s
  emptyRec : emptyRecLegal s
  cells : cellsLegal s
  fault : faultLegal s
  block : blockLegal s
  raster : Memory.wf s.raster = true

/-- The image in the unit is valid output: no fault has aborted it (R226). -/
def imageValid (s : State) : Prop := s.status.fault = false

end Sys2Proof.Machine
end

