-- ==== Sys2Proof/Certificates/Slice0/Obligations.lean ====
section
/-! DEFINITION. The statements about the unit, from the numbered rules of spec/. Each says what the rule it names says; a
statement about an instruction gives the whole next state, or every field of it, so that it is the instruction's frame as
well. -/

namespace Sys2Proof.Machine

/-- At most one of the two forcing options is set: `CfgCheck` passes (R110). -/
def configOk (s : State) : Prop := ¬ (s.cfgFg.getLsbD 8 = true ∧ s.cfgMc.getLsbD 16 = true)

/-- A region of context `ctx` with top-left pixel `(x, y)` is inside the raster (R223). -/
def regionInside (s : State) (ctx : Context) (x y : Nat) : Prop :=
  x + regionWidth ctx ≤ (s.rasterDim.extractLsb' 0 16).toNat ∧
    y + regionHeight ctx ≤ (s.rasterDim.extractLsb' 16 16).toNat

/-- The state after fault entry, written out (R225). -/
def faulted (w : Word) (code : BitVec 4) (cell : Word) (s : State) : State :=
  { s with status := { s.status with fault := true, err := code }, errCmd := w, errCell := cell }

/-- Nothing but the pieces of state that the rules of encoding, insertion and promotion write differs. -/
structure SameOutsideImage (s t : State) : Prop where
  ctrl : t.ctrl = s.ctrl
  cfgBg : t.cfgBg = s.cfgBg
  cfgFg : t.cfgFg = s.cfgFg
  cfgMc : t.cfgMc = s.cfgMc
  cfgHint : t.cfgHint = s.cfgHint
  cfgOffset : t.cfgOffset = s.cfgOffset
  cfgAttr : t.cfgAttr = s.cfgAttr
  cfgSprPad : t.cfgSprPad = s.cfgSprPad
  rasterDim : t.rasterDim = s.rasterDim
  rasterFmt : t.rasterFmt = s.rasterFmt
  dictCap : t.dictCap = s.dictCap
  mapCap : t.mapCap = s.mapCap
  raster : t.raster = s.raster
  queue : t.queue = s.queue
  busData : t.busData = s.busData

/-- The fault record is untouched. -/
structure SameFaultRecord (s t : State) : Prop where
  fault : t.status.fault = s.status.fault
  err : t.status.err = s.status.err
  ign : t.status.ign = s.status.ign
  errCmd : t.errCmd = s.errCmd
  errCell : t.errCell = s.errCell

/-- The dictionary and the maps are untouched. -/
structure SameTables (s t : State) : Prop where
  dict : t.dict = s.dict
  emptyRec : t.emptyRec = s.emptyRec
  cells : t.cells = s.cells

/-- The roles with which the `n`-th pixel of a block is resolved: the defaults, and then every pixel before it in scan order
(R132, R135). -/
def rolesBefore (s : State) (x0 y0 : Nat) (ctx : Context) (width : PixelWidth) (n : Nat) : RoleFile :=
  ((scanOrder ctx width).take n).foldl
    (fun f p => (resolvePixel (foreground s) (rasterRead s (x0 + p.1) (y0 + p.2)) width ctx f).2) (roleDefaults s)

/-- The code that the `n`-th pixel of a block, at offset `(x, y)`, gets (R132). -/
def codeAt (s : State) (x0 y0 : Nat) (ctx : Context) (width : PixelWidth) (n x y : Nat) : BitVec 2 :=
  (resolvePixel (foreground s) (rasterRead s (x0 + x) (y0 + y)) width ctx (rolesBefore s x0 y0 ctx width n)).1

/-- A region holds palette value `v` (R152). -/
def regionHolds (s : State) (ctx : Context) (x0 y0 : Nat) (v : Byte) : Prop :=
  ∃ x y, x < regionWidth ctx ∧ y < regionHeight ctx ∧ rasterRead s (x0 + x) (y0 + y) = v

/-- The detector's background of a region, from the registers (R151). -/
def regionBackground (s : State) (x0 y0 : Nat) : Byte :=
  if s.cfgBg.getLsbD 8 then s.cfgBg.extractLsb' 0 8
  else if s.cfgHint.getLsbD 8 then s.cfgHint.extractLsb' 0 8
  else rasterRead s x0 y0

/-- The closed form of the detector: exactly one value other than the background, and a pair that differs (R152). -/
def hiresByClosedForm (s : State) (ctx : Context) (x0 y0 : Nat) : Prop :=
  (∃ v, v ≠ regionBackground s x0 y0 ∧ regionHolds s ctx x0 y0 v ∧
    ∀ u, u ≠ regionBackground s x0 y0 → regionHolds s ctx x0 y0 u → u = v) ∧
  (∃ i y, 2 * i + 1 < regionWidth ctx ∧ y < regionHeight ctx ∧
    rasterRead s (x0 + 2 * i) (y0 + y) ≠ rasterRead s (x0 + 2 * i + 1) (y0 + y))

/-- The buffer, its flags and the role file of `t` hold the encoding of cell `(cx, cy)` of the image of `s`: the character region
whose top-left pixel is `(8·cx, 8·cy)` (R180), at the width of R182, every scanned pixel's code at its place (R132, R73, R74) and
the roles those learned in scan order. -/
structure HoldsCell (s : State) (cx cy : Nat) (t : State) : Prop where
  valid : t.status.blkV = true
  character : t.status.blkSpr = false
  multicolor : t.status.blkMc = true ↔
    s.cfgFg.getLsbD 8 = false ∧ (s.cfgMc.getLsbD 16 = true ∨ s.ctrl.getLsbD 0 = true) ∧
      ¬ hiresByClosedForm s .character (8 * cx) (8 * cy)
  blank : t.status.blkBlank = true ↔ ∀ j, j < 8 → bufByte t.buf j = 0#8
  codes : ∀ width : PixelWidth, width = (if t.status.blkMc then .multicolor else .hires) →
    ∀ n p, (scanOrder .character width)[n]? = some p →
      (bufByte t.buf p.2).extractLsb' (8 - pixelBits width - p.1) (pixelBits width) =
        (codeAt s (8 * cx) (8 * cy) .character width n p.1 p.2).setWidth (pixelBits width)
  roles : ∀ width : PixelWidth, width = (if t.status.blkMc then .multicolor else .hires) →
    t.roles = rolesBefore s (8 * cx) (8 * cy) .character width (scanOrder .character width).length

/-- The registers that a host can write and that hold what was written: the RW registers of R32, each with its defined bits.
Every other register has none. -/
def definedBits : Reg → Word
  | .ctrl => 0x7#32
  | .cfgBg => 0x1FF#32
  | .cfgFg => 0x1FF#32
  | .cfgMc => 0x1FFFF#32
  | .cfgHint => 0x1FF#32
  | .cfgOffset => 0xFFFF#32
  | .cfgAttr => 0xFFFFFFFF#32
  | .cfgSprPad => 0xFF#32
  | .rasterDim => 0xFFFFFFFF#32
  | .rasterFmt => 0x1#32
  | .id => 0#32
  | .cmd => 0#32
  | .status => 0#32
  | .result => 0#32
  | .dictCount => 0#32
  | .emptyRec => 0#32
  | .roleVal => 0#32
  | .roleBound => 0#32
  | .errCmd => 0#32
  | .errCell => 0#32
  | .mapDim => 0#32
  | .capDict => 0#32
  | .capMap => 0#32
  | .reserved => 0#32

/-- The condition under which R97 calls a word illegal, bit by bit. -/
def illegalByR97 (w : Word) : Prop :=
  11 ≤ (w.extractLsb' 28 4).toNat ∨
  ((w.extractLsb' 28 4).toNat ∈ [0, 1, 5, 6, 8, 9] ∧ w.extractLsb' 0 28 ≠ 0#28) ∨
  ((w.extractLsb' 28 4).toNat = 2 ∧ w.extractLsb' 8 18 ≠ 0#18) ∨
  ((w.extractLsb' 28 4).toNat = 3 ∧ (w.extractLsb' 25 2 ≠ 0#2 ∨ w.getLsbD 24 = true)) ∨
  ((w.extractLsb' 28 4).toNat = 4 ∧ (w.extractLsb' 25 2 = 3#2 ∨ w.getLsbD 24 = true)) ∨
  ((w.extractLsb' 28 4).toNat = 7 ∧
    (w.getLsbD 27 = true ∨ w.extractLsb' 25 2 ≠ 0#2 ∨ w.getLsbD 24 = true)) ∨
  ((w.extractLsb' 28 4).toNat = 10 ∧
    (4 ≤ (w.extractLsb' 24 4).toNat ∨
     ((w.extractLsb' 24 4).toNat = 1 ∧ w.extractLsb' 0 8 ≠ 0#8) ∨
     ((w.extractLsb' 24 4).toNat = 2 ∧ w.extractLsb' 0 8 ≠ 0#8) ∨
     ((w.extractLsb' 24 4).toNat = 3 ∧ w.extractLsb' 8 16 ≠ 0#16)))

/-- The commands that read the role configuration (R110). -/
def readsRoleConfig : Instr → Prop
  | .roleReset => True
  | .resolve _ _ _ => True
  | .detect _ _ _ => True
  | .encode _ _ _ _ => True
  | .buildCell _ _ => True
  | .buildCharmap => True
  | .clear => False
  | .lookupInsert => False
  | .promoteEmpty => False
  | .finalize => False
  | .readDict _ _ => False
  | .readMap _ => False
  | .readCmap _ => False
  | .readBuf _ => False

/-- The commands that sample the raster (R221). -/
def samplesRaster : Instr → Prop
  | .detect _ _ _ => True
  | .encode _ _ _ _ => True
  | .buildCell _ _ => True
  | .buildCharmap => True
  | .clear => False
  | .roleReset => False
  | .resolve _ _ _ => False
  | .lookupInsert => False
  | .promoteEmpty => False
  | .finalize => False
  | .readDict _ _ => False
  | .readMap _ => False
  | .readCmap _ => False
  | .readBuf _ => False

/-- `ENCODE` asks for multicolor width (R131). -/
def asksMulticolor : Instr → Prop
  | .encode _ .multicolor _ _ => True
  | .encode _ .auto _ _ => False
  | .encode _ .hires _ _ => False
  | .encode _ .reserved _ _ => False
  | .clear => False
  | .roleReset => False
  | .resolve _ _ _ => False
  | .detect _ _ _ => False
  | .lookupInsert => False
  | .promoteEmpty => False
  | .buildCell _ _ => False
  | .buildCharmap => False
  | .finalize => False
  | .readDict _ _ => False
  | .readMap _ => False
  | .readCmap _ => False
  | .readBuf _ => False

/-- The commands that load or clear the role file (R116; `BUILD_CELL` and `BUILD_CHARMAP` encode blocks, R182). -/
def resetsRoles : Instr → Prop
  | .clear => True
  | .roleReset => True
  | .encode _ _ _ _ => True
  | .buildCell _ _ => True
  | .buildCharmap => True
  | .resolve _ _ _ => False
  | .detect _ _ _ => False
  | .lookupInsert => False
  | .promoteEmpty => False
  | .finalize => False
  | .readDict _ _ => False
  | .readMap _ => False
  | .readCmap _ => False
  | .readBuf _ => False

/-- The code and the role file that R114 gives for a multicolor pixel: match in priority order, else bind in priority order,
else the catch-all. -/
def multicolorByR114 (p : Byte) (mc2Code uqCode : BitVec 2) (f : RoleFile) : BitVec 2 × RoleFile :=
  if f.bg = some p then (0#2, f)
  else if f.mc1 = some p then (1#2, f)
  else if f.mc2 = some p then (mc2Code, f)
  else if f.uq = some p then (uqCode, f)
  else if f.bg = none then (0#2, { f with bg := some p })
  else if f.mc1 = none then (1#2, { f with mc1 := some p })
  else if f.mc2 = none then (mc2Code, { f with mc2 := some p })
  else if f.uq = none then (uqCode, { f with uq := some p })
  else (uqCode, f)

/-- The code and the role file that R114 gives for a hires pixel without a foreground override. -/
def hiresByR114 (p : Byte) (f : RoleFile) : BitVec 2 × RoleFile :=
  if f.bg = some p then (0#2, f)
  else if f.uq = some p then (1#2, f)
  else if f.bg = none then (0#2, { f with bg := some p })
  else if f.uq = none then (1#2, { f with uq := some p })
  else (1#2, f)

/-- The cells of the map before and after, at every index. -/
def sameCell (s t : State) (k : Nat) : Prop := sparseGet? t.cells k = sparseGet? s.cells k

end Sys2Proof.Machine

open Sys2Proof Sys2Proof.Machine

/-! ### Encoding (spec/30_encoding.md) -/

/-- R101, which the spec marks as derived from R91-R96: the worked encodings. -/
def Obligations.DecodesTheWorkedEncodings : Prop :=
  decode 0x48000000#32 = .legal (.encode .sprite .auto 0#12 0#12) ∧
  decode 0x40000008#32 = .legal (.encode .character .auto 8#12 0#12) ∧
  decode 0x24000005#32 = .legal (.resolve .character .multicolor 5#8) ∧
  decode 0x2C000005#32 = .legal (.resolve .sprite .multicolor 5#8) ∧
  decode 0x30008010#32 = .legal (.detect .character 16#12 8#12) ∧
  decode 0x70000003#32 = .legal (.buildCell 3#12 0#12) ∧
  decode 0xA1000300#32 = .legal (.readMap 3#16) ∧
  decode 0xA0000107#32 = .legal (.readDict 1#16 7#8)

/-- R91-R96: decoding the word of a well-formed command gives the command back, with every operand at every value. -/
def Obligations.DecodeOfEncodeIsTheCommand : Prop :=
  ∀ i : Instr, i.wellFormed = true → decode (encode i) = .legal i

/-- R97: every word that decodes is the word of the command it decodes to, so no two words are one command. -/
def Obligations.EncodeOfDecodeIsTheWord : Prop :=
  ∀ (w : Word) (i : Instr), decode w = .legal i → i.wellFormed = true ∧ encode i = w

/-- R97, R224: the illegal words are those of R97. Issuing one without a fault raises IllegalCommand and no part of a command
runs; every other word is one command, which runs. -/
def Obligations.IllegalWordsAreThoseOfTheListAndRaise : Prop :=
  ∀ (w : Word) (s : State), s.status.fault = false →
    (illegalByR97 w → issue w s = .next (faulted w 4#4 0xFFFFFFFF#32 s)) ∧
    (¬ illegalByR97 w → ∃ i : Instr, decode w = .legal i ∧ i.wellFormed = true ∧ issue w s = exec i s)

/-! ### The step, the dispatcher and the bus (spec/45_host_access.md, spec/60_exceptions.md) -/

/-- R227: a write to `CMD` steps as the dispatcher says. While a fault stands only the word 0 runs, as `CLEAR`, and every
other is ignored; without a fault a legal word runs its command and an illegal one raises. The write leaves the host's list of
pending events, the model's own field (log entry 3), without its first event. -/
def Obligations.StepRunsTheIssuedCommand : Prop :=
  ∀ (s : State) (w : Word) (rest : List HostEvent), s.queue = .write .word 0x2C#8 w :: rest →
    (s.status.fault = true → w = 0#32 → step s = exec .clear { s with queue := rest }) ∧
    (s.status.fault = true → w ≠ 0#32 →
      step s = .next { s with queue := rest, status := { s.status with ign := true } }) ∧
    (s.status.fault = false → ∀ i : Instr, decode w = .legal i → step s = exec i { s with queue := rest }) ∧
    (s.status.fault = false → ∀ r : IllegalReason, decode w = .illegal r →
      step s = .next (faulted w 4#4 0xFFFFFFFF#32 { s with queue := rest }))

/-- A word placed for the next step runs as the command it decodes to, on the state it was placed in (log entry 3 says how a
command comes to the unit). -/
def Obligations.StepRunsTheDecodedWord : Prop :=
  ∀ (s : State) (nbits w : Nat) (i : Instr), s.status.fault = false → decodeTableWord nbits w = some i →
    step (s.withFetchWord nbits w) = exec i s

/-- R240, R251: with nothing pending (the model's own queue, log entry 3) the unit is idle and holds its state. -/
def Obligations.IdleUnitHoldsItsState : Prop :=
  ∀ s : State, s.queue = [] → step s = .next s

/-- R204, R32, R31-R60: a 32-bit read at a word offset returns the register there, into the model's own `busData` (log entry
3), and changes nothing in the unit. What it returns is said offset by offset; `STATUS`, `ROLE_VAL` and `ROLE_BOUND` field by
field in StatusReadsItsFlags and RoleRegistersReadTheRoleFile. Reserved offsets and `CMD` read 0, and `ID` its constant. -/
def Obligations.BusReadReturnsTheRegister : Prop :=
  ∀ (s : State) (off : Byte) (rest : List HostEvent), s.queue = .read .word off :: rest → off.toNat % 4 = 0 →
    ∃ v : Word, step s = .next { s with queue := rest, busData := v } ∧ v = readReg (regOfOffset off) s ∧
      (off = 0x00#8 → v = 0x53324131#32) ∧
      (off = 0x04#8 → v = s.ctrl.setWidth 32) ∧
      (off = 0x08#8 → v = s.cfgBg.setWidth 32) ∧
      (off = 0x0C#8 → v = s.cfgFg.setWidth 32) ∧
      (off = 0x10#8 → v = s.cfgMc.setWidth 32) ∧
      (off = 0x14#8 → v = s.cfgHint.setWidth 32) ∧
      (off = 0x18#8 → v = s.cfgOffset.setWidth 32) ∧
      (off = 0x1C#8 → v = s.cfgAttr) ∧
      (off = 0x20#8 → v = s.cfgSprPad.setWidth 32) ∧
      (off = 0x24#8 → v = s.rasterDim) ∧
      (off = 0x28#8 → v = s.rasterFmt.setWidth 32) ∧
      (off = 0x2C#8 → v = 0#32) ∧
      (off = 0x34#8 → v = s.result) ∧
      (off = 0x38#8 → v = BitVec.ofNat 32 s.dict.length) ∧
      (off = 0x48#8 → v = s.errCmd) ∧
      (off = 0x4C#8 → v = s.errCell) ∧
      (off = 0x54#8 → v = BitVec.ofNat 32 s.dictCap) ∧
      (off = 0x58#8 → v = BitVec.ofNat 32 s.mapCap) ∧
      (off = 0x3C#8 → v.getLsbD 31 = s.emptyRec.isNone ∧ v.extractLsb' 16 15 = 0#15 ∧
        v.extractLsb' 0 16 = s.emptyRec.getD 0#16) ∧
      (off = 0x50#8 → (v.extractLsb' 0 16).toNat = (s.rasterDim.extractLsb' 0 16).toNat / 8 ∧
        (v.extractLsb' 16 16).toNat = (s.rasterDim.extractLsb' 16 16).toNat / 8) ∧
      (0x5C ≤ off.toNat → v = 0#32)

/-- R45: `STATUS` reads its flags at their places, and `BUSY` and the reserved bits as 0. -/
def Obligations.StatusReadsItsFlags : Prop :=
  ∀ s : State,
    (readReg (regOfOffset 0x30#8) s).getLsbD 0 = s.status.fault ∧
    (readReg (regOfOffset 0x30#8) s).extractLsb' 1 3 = 0#3 ∧
    (readReg (regOfOffset 0x30#8) s).extractLsb' 4 4 = s.status.err ∧
    (readReg (regOfOffset 0x30#8) s).getLsbD 8 = s.status.asw ∧
    (readReg (regOfOffset 0x30#8) s).getLsbD 9 = s.status.ign ∧
    (readReg (regOfOffset 0x30#8) s).getLsbD 10 = s.status.newEntry ∧
    (readReg (regOfOffset 0x30#8) s).getLsbD 11 = s.status.blkV ∧
    (readReg (regOfOffset 0x30#8) s).getLsbD 12 = s.status.blkMc ∧
    (readReg (regOfOffset 0x30#8) s).getLsbD 13 = s.status.blkSpr ∧
    (readReg (regOfOffset 0x30#8) s).getLsbD 14 = s.status.blkBlank ∧
    (readReg (regOfOffset 0x30#8) s).extractLsb' 15 17 = 0#17

/-- R47, R46: `ROLE_VAL` and `ROLE_BOUND` read the role file, an unbound role's value as 0. -/
def Obligations.RoleRegistersReadTheRoleFile : Prop :=
  ∀ s : State,
    (readReg (regOfOffset 0x40#8) s).extractLsb' 0 8 = s.roles.bg.getD 0#8 ∧
    (readReg (regOfOffset 0x40#8) s).extractLsb' 8 8 = s.roles.mc1.getD 0#8 ∧
    (readReg (regOfOffset 0x40#8) s).extractLsb' 16 8 = s.roles.mc2.getD 0#8 ∧
    (readReg (regOfOffset 0x40#8) s).extractLsb' 24 8 = s.roles.uq.getD 0#8 ∧
    (readReg (regOfOffset 0x44#8) s).getLsbD 0 = s.roles.bg.isSome ∧
    (readReg (regOfOffset 0x44#8) s).getLsbD 1 = s.roles.mc1.isSome ∧
    (readReg (regOfOffset 0x44#8) s).getLsbD 2 = s.roles.mc2.isSome ∧
    (readReg (regOfOffset 0x44#8) s).getLsbD 3 = s.roles.uq.isSome ∧
    (readReg (regOfOffset 0x44#8) s).extractLsb' 4 28 = 0#28

/-- R54 (with the host's queue of log entry 3): `MAP_DIM` reads the number of whole cells, and follows every write to
`RASTER_DIM`. -/
def Obligations.MapDimFollowsRasterDim : Prop :=
  ∀ (s : State) (v : Word) (rest : List HostEvent), s.queue = .write .word 0x24#8 v :: rest →
    ∃ t, step s = .next t ∧ t = { s with queue := rest, rasterDim := v } ∧
      ((readReg (regOfOffset 0x50#8) t).extractLsb' 0 16).toNat = (v.extractLsb' 0 16).toNat / 8 ∧
      ((readReg (regOfOffset 0x50#8) t).extractLsb' 16 16).toNat = (v.extractLsb' 16 16).toNat / 8

/-- R205, R32, R33-R42 (with the host's queue of log entry 3): a write to a register other than `CMD` steps. Said offset by
offset, an RW register takes its defined bits of the value written and nothing else in the state changes, and a write to an RO
or reserved offset changes nothing. The register then reads its defined bits of the value, and every other register but the
derived `MAP_DIM` reads as before. -/
def Obligations.BusWriteSetsTheDefinedBits : Prop :=
  ∀ (s : State) (off : Byte) (v : Word) (rest : List HostEvent), s.queue = .write .word off v :: rest →
    off.toNat % 4 = 0 → off ≠ 0x2C#8 →
    ∃ t, step s = .next t ∧ t.queue = rest ∧
      (off = 0x04#8 → t = { s with queue := rest, ctrl := v.extractLsb' 0 3 }) ∧
      (off = 0x08#8 → t = { s with queue := rest, cfgBg := v.extractLsb' 0 9 }) ∧
      (off = 0x0C#8 → t = { s with queue := rest, cfgFg := v.extractLsb' 0 9 }) ∧
      (off = 0x10#8 → t = { s with queue := rest, cfgMc := v.extractLsb' 0 17 }) ∧
      (off = 0x14#8 → t = { s with queue := rest, cfgHint := v.extractLsb' 0 9 }) ∧
      (off = 0x18#8 → t = { s with queue := rest, cfgOffset := v.extractLsb' 0 16 }) ∧
      (off = 0x1C#8 → t = { s with queue := rest, cfgAttr := v }) ∧
      (off = 0x20#8 → t = { s with queue := rest, cfgSprPad := v.extractLsb' 0 8 }) ∧
      (off = 0x24#8 → t = { s with queue := rest, rasterDim := v }) ∧
      (off = 0x28#8 → t = { s with queue := rest, rasterFmt := v.extractLsb' 0 1 }) ∧
      (0x2C ≤ off.toNat ∨ off = 0x00#8 → t = { s with queue := rest }) ∧
      (definedBits (regOfOffset off) ≠ 0#32 →
        readReg (regOfOffset off) t = v &&& definedBits (regOfOffset off)) ∧
      (definedBits (regOfOffset off) = 0#32 → t = { s with queue := rest }) ∧
      (∀ r : Reg, r ≠ regOfOffset off → r ≠ .mapDim → readReg r t = readReg r s) ∧
      SameTables s t ∧ t.buf = s.buf ∧ t.status = s.status ∧ t.roles = s.roles ∧ t.result = s.result ∧
      t.raster = s.raster ∧ t.busData = s.busData ∧ t.dictCap = s.dictCap ∧ t.mapCap = s.mapCap

/-- R75 (with the host's queue of log entry 3): an access that is not 32 bits wide, or not at a multiple of 4, is refused. -/
def Obligations.OtherAccessesAreRefused : Prop :=
  ∀ (s : State) (size : AccessSize) (off : Byte) (v : Word) (rest : List HostEvent),
    (s.queue = .read size off :: rest ∨ s.queue = .write size off v :: rest) →
    (size ≠ .word → step s = .refused (.narrowAccess size)) ∧
    (size = .word → off.toNat % 4 ≠ 0 → step s = .refused (.unalignedAccess off))

/-! ### Reset (spec/70_reset_and_hazards.md) -/

/-- R250: the hardware reset sets every register as the reset table says, empties the tables, and leaves the instance's
capacities. The buffer's bytes are unspecified and not spoken of. That the event stands in the host's queue is the model's
choice (log entries 3 and 6). -/
def Obligations.HardResetSetsEveryRegister : Prop :=
  ∀ (s : State) (rest : List HostEvent), s.queue = .hardReset :: rest →
    ∃ t, step s = .next t ∧ t.queue = rest ∧
      readReg (regOfOffset 0x00#8) t = 0x53324131#32 ∧
      readReg (regOfOffset 0x04#8) t = 0#32 ∧
      readReg (regOfOffset 0x08#8) t = 0#32 ∧
      readReg (regOfOffset 0x0C#8) t = 0#32 ∧
      readReg (regOfOffset 0x10#8) t = 0#32 ∧
      readReg (regOfOffset 0x14#8) t = 0#32 ∧
      readReg (regOfOffset 0x18#8) t = 0#32 ∧
      readReg (regOfOffset 0x1C#8) t = 0x08070F00#32 ∧
      readReg (regOfOffset 0x20#8) t = 0#32 ∧
      readReg (regOfOffset 0x24#8) t = 0#32 ∧
      readReg (regOfOffset 0x28#8) t = 0#32 ∧
      readReg (regOfOffset 0x2C#8) t = 0#32 ∧
      readReg (regOfOffset 0x30#8) t = 0#32 ∧
      readReg (regOfOffset 0x34#8) t = 0#32 ∧
      readReg (regOfOffset 0x38#8) t = 0#32 ∧
      readReg (regOfOffset 0x3C#8) t = 0x80000000#32 ∧
      readReg (regOfOffset 0x40#8) t = 0#32 ∧
      readReg (regOfOffset 0x44#8) t = 0#32 ∧
      readReg (regOfOffset 0x48#8) t = 0#32 ∧
      readReg (regOfOffset 0x4C#8) t = 0xFFFFFFFF#32 ∧
      readReg (regOfOffset 0x50#8) t = 0#32 ∧
      readReg (regOfOffset 0x54#8) t = readReg (regOfOffset 0x54#8) s ∧
      readReg (regOfOffset 0x58#8) t = readReg (regOfOffset 0x58#8) s ∧
      t.dict = [] ∧ t.cells = [] ∧ t.status = Status.clear

/-- R253, which the spec marks as derived from R250 and R201: `CLEAR` right after reset is the same as reset alone. -/
def Obligations.ClearAfterResetIsReset : Prop :=
  exec .clear State.reset = .next State.reset

/-- R71, R252 step 1: when the host connects an image, `RasterRead` of a listed pixel gives its palette index, and nothing in
the unit changes. How an image is listed and connected is the model's choice (log entries 2 and 3). -/
def Obligations.ConnectedImageIsWhatIsRead : Prop :=
  ∀ (s : State) (pixels : List Host.Cell) (rest : List HostEvent), s.queue = .connectRaster pixels :: rest →
    (∀ c ∈ pixels, c.1 < Memory.size) → (pixels.map Prod.fst).Nodup →
    ∃ t, step s = .next t ∧ t = { s with queue := rest, raster := t.raster } ∧
      ∀ x y b, (pixelAddress x y, b) ∈ pixels → rasterRead t x y = b

/-! ### Colour roles (spec/40_color_roles.md) -/

/-- R110, R229: with both forcing options set, every command that reads the role configuration raises ConfigError before any
change. -/
def Obligations.ContradictoryOptionsRaiseConfigError : Prop :=
  ∀ (i : Instr) (s : State), readsRoleConfig i → i.wellFormed = true →
    s.cfgFg.getLsbD 8 = true → s.cfgMc.getLsbD 16 = true →
    exec i s = .next (faulted (encode i) 6#4 0xFFFFFFFF#32 s)

/-- R112: `ROLE_RESET` loads the role file from the configuration and changes nothing else. -/
def Obligations.RoleResetLoadsTheDefaults : Prop :=
  ∀ s : State, configOk s →
    exec .roleReset s = .next { s with roles :=
      { bg := if s.cfgBg.getLsbD 8 then some (s.cfgBg.extractLsb' 0 8)
              else if s.cfgHint.getLsbD 8 then some (s.cfgHint.extractLsb' 0 8) else none
        mc1 := if s.cfgMc.getLsbD 16 then some (s.cfgMc.extractLsb' 0 8) else none
        mc2 := if s.cfgMc.getLsbD 16 then some (s.cfgMc.extractLsb' 8 8) else none
        uq := if s.cfgFg.getLsbD 8 then some (s.cfgFg.extractLsb' 0 8) else none } }

/-- R113, R114, R115, R117, R118: `RESOLVE` without a foreground override. In multicolor the codes of `MC2` and `UQ` swap
between characters and sprites; in hires only `BG` and `UQ` take part. Nothing but `RESULT` and the role file changes. -/
def Obligations.ResolveMatchesThenBindsThenCatchesAll : Prop :=
  ∀ (ctx : Context) (pix : Byte) (s : State), s.cfgFg.getLsbD 8 = false →
    exec (.resolve ctx .hires pix) s =
      .next { s with roles := (hiresByR114 pix s.roles).2, result := (hiresByR114 pix s.roles).1.setWidth 32 } ∧
    exec (.resolve .character .multicolor pix) s =
      .next { s with roles := (multicolorByR114 pix 2#2 3#2 s.roles).2
                     result := (multicolorByR114 pix 2#2 3#2 s.roles).1.setWidth 32 } ∧
    exec (.resolve .sprite .multicolor pix) s =
      .next { s with roles := (multicolorByR114 pix 3#2 2#2 s.roles).2
                     result := (multicolorByR114 pix 3#2 2#2 s.roles).1.setWidth 32 }

/-- R114 case 1, R113, R131: under a foreground override `RESOLVE` in hires answers 1 for the foreground and 0 for every other
value and binds nothing; `RESOLVE` in multicolor and `ENCODE` at multicolor width raise ConfigError and change nothing else. -/
def Obligations.ForegroundOverrideForcesHires : Prop :=
  ∀ (ctx : Context) (pix : Byte) (s : State), s.cfgFg.getLsbD 8 = true → s.cfgMc.getLsbD 16 = false →
    exec (.resolve ctx .hires pix) s =
      .next { s with result := if pix = s.cfgFg.extractLsb' 0 8 then 1#32 else 0#32 } ∧
    exec (.resolve ctx .multicolor pix) s =
      .next (faulted (encode (.resolve ctx .multicolor pix)) 6#4 0xFFFFFFFF#32 s) ∧
    ∀ x y : BitVec 12, exec (.encode ctx .multicolor x y) s =
      .next (faulted (encode (.encode ctx .multicolor x y)) 6#4 0xFFFFFFFF#32 s)

/-- R116, which the spec marks as derived from R114: a command that does not reset the roles leaves every bound role bound to
the same value. -/
def Obligations.NoRoleIsReboundWithinABlock : Prop :=
  ∀ (i : Instr) (s t : State) (r : RoleName) (v : Byte), ¬ resetsRoles i → exec i s = .next t →
    roleGet s.roles r = some v → roleGet t.roles r = some v

/-! ### Mode detector (spec/42_mode_detect.md) -/

/-- R150, and R152, which the spec marks as derived from it: `DETECT` in range answers 1 exactly under the closed form, and
changes `RESULT` only. -/
def Obligations.DetectAnswersTheClosedForm : Prop :=
  ∀ (ctx : Context) (x y : BitVec 12) (s : State), configOk s → s.rasterFmt = 1#1 → regionInside s ctx x.toNat y.toNat →
    (hiresByClosedForm s ctx x.toNat y.toNat → exec (.detect ctx x y) s = .next { s with result := 1#32 }) ∧
    (¬ hiresByClosedForm s ctx x.toNat y.toNat → exec (.detect ctx x y) s = .next { s with result := 0#32 })

/-- R153, which the spec marks as derived from R152: a region of at least three values, and a region of one value, are not
treated as hires. -/
def Obligations.DetectRejectsThreeColoursAndOneColour : Prop :=
  ∀ (ctx : Context) (x y : BitVec 12) (s : State), configOk s → s.rasterFmt = 1#1 → regionInside s ctx x.toNat y.toNat →
    (∀ u v w : Byte, u ≠ v → v ≠ w → u ≠ w → regionHolds s ctx x.toNat y.toNat u →
      regionHolds s ctx x.toNat y.toNat v → regionHolds s ctx x.toNat y.toNat w →
      exec (.detect ctx x y) s = .next { s with result := 0#32 }) ∧
    (∀ u : Byte, (∀ v, regionHolds s ctx x.toNat y.toNat v → v = u) →
      exec (.detect ctx x y) s = .next { s with result := 0#32 })

/-- R221, R223, R228: a command that samples the raster, past its configuration checks, raises FormatError when the raster is
not indexed, before its range is looked at. -/
def Obligations.UnindexedRasterRaisesFormatError : Prop :=
  ∀ (i : Instr) (s : State), samplesRaster i → i.wellFormed = true → configOk s →
    ¬ (asksMulticolor i ∧ s.cfgFg.getLsbD 8 = true) → s.rasterFmt = 0#1 →
    exec i s = .next (faulted (encode i) 2#4 0xFFFFFFFF#32 s)

/-- R223 cases 1 and 2, R228: a region outside the raster and a cell outside the map raise RangeError and change nothing. -/
def Obligations.OutsideRegionsRaiseRangeError : Prop :=
  ∀ s : State, configOk s → s.rasterFmt = 1#1 →
    (∀ (ctx : Context) (x y : BitVec 12), ¬ regionInside s ctx x.toNat y.toNat →
      exec (.detect ctx x y) s = .next (faulted (encode (.detect ctx x y)) 5#4 0xFFFFFFFF#32 s)) ∧
    (∀ (ctx : Context) (wsel : WidthSel) (x y : BitVec 12), ¬ regionInside s ctx x.toNat y.toNat → wsel ≠ .reserved →
      ¬ (wsel = .multicolor ∧ s.cfgFg.getLsbD 8 = true) →
      exec (.encode ctx wsel x y) s = .next (faulted (encode (.encode ctx wsel x y)) 5#4 0xFFFFFFFF#32 s)) ∧
    (∀ cx cy : BitVec 12, (mapWidth s ≤ cx.toNat ∨ mapHeight s ≤ cy.toNat) →
      exec (.buildCell cx cy) s = .next (faulted (encode (.buildCell cx cy)) 5#4 0xFFFFFFFF#32 s))

/-! ### Pixel encoder (spec/41_pixel_encode.md) -/

/-- R131: `ENCODE` in range completes. The width is the one asked for, or in auto hires unless the global mode is multicolor
and the detector says no. Only the buffer, its four flags, the role file and `RESULT` change. -/
def Obligations.EncodeCompletesAtTheChosenWidth : Prop :=
  ∀ (ctx : Context) (wsel : WidthSel) (x y : BitVec 12) (s : State), configOk s → wsel ≠ .reserved →
    ¬ (wsel = .multicolor ∧ s.cfgFg.getLsbD 8 = true) → s.rasterFmt = 1#1 → regionInside s ctx x.toNat y.toNat →
    ∃ t, exec (.encode ctx wsel x y) s = .next t ∧
      SameOutsideImage s t ∧ SameFaultRecord s t ∧ SameTables s t ∧
      t.status.asw = s.status.asw ∧ t.status.newEntry = s.status.newEntry ∧
      t.status.blkV = true ∧ (t.status.blkSpr = true ↔ ctx = .sprite) ∧
      (t.status.blkMc = true ↔
        wsel = .multicolor ∨
        (wsel = .auto ∧ s.cfgFg.getLsbD 8 = false ∧ (s.cfgMc.getLsbD 16 = true ∨ s.ctrl.getLsbD 0 = true) ∧
          ¬ hiresByClosedForm s ctx x.toNat y.toNat)) ∧
      t.result.getLsbD 0 = t.status.blkMc ∧ t.result.getLsbD 1 = t.status.blkBlank ∧ t.result.extractLsb' 2 30 = 0#30

/-- R132, R73, R74, R133, R135: after `ENCODE` the code of every scanned pixel stands at its place in the buffer, as the roles
learned from the pixels before it give it; a sprite's byte 63 is the pad; the bytes above a character's are as before (they
hold no value, R48: the model's choice, log entry 12). -/
def Obligations.EncodePacksTheResolvedCodes : Prop :=
  ∀ (ctx : Context) (wsel : WidthSel) (x y : BitVec 12) (s : State), configOk s → wsel ≠ .reserved →
    ¬ (wsel = .multicolor ∧ s.cfgFg.getLsbD 8 = true) → s.rasterFmt = 1#1 → regionInside s ctx x.toNat y.toNat →
    ∃ t, exec (.encode ctx wsel x y) s = .next t ∧
      (∀ width : PixelWidth, width = (if t.status.blkMc then .multicolor else .hires) →
        (∀ n p, (scanOrder ctx width)[n]? = some p →
          (bufByte t.buf (p.2 * rowBytes ctx + p.1 / 8)).extractLsb' (8 - pixelBits width - p.1 % 8) (pixelBits width) =
            (codeAt s x.toNat y.toNat ctx width n p.1 p.2).setWidth (pixelBits width)) ∧
        t.roles = rolesBefore s x.toNat y.toNat ctx width (scanOrder ctx width).length) ∧
      (ctx = .sprite → bufByte t.buf 63 = s.cfgSprPad) ∧
      (ctx = .character → ∀ j, 8 ≤ j → bufByte t.buf j = bufByte s.buf j)

/-- R135, R134: the scan order is row by row from the top, left to right, and at multicolor width it takes the even columns
alone. -/
def Obligations.ScanOrderIsRowByRow : Prop :=
  ∀ (ctx : Context) (width : PixelWidth) (i y : Nat), i < regionWidth ctx / pixelBits width → y < regionHeight ctx →
    (scanOrder ctx width)[y * (regionWidth ctx / pixelBits width) + i]? = some (i * pixelBits width, y) ∧
    (scanOrder ctx width).length = regionHeight ctx * (regionWidth ctx / pixelBits width)

/-- R139, whose second half the spec marks as derived from R132 and R114: after `ENCODE`, `BLK_BLANK` says that every data
byte is zero, the pad not looked at, and that is so exactly when every scanned pixel got code 0. -/
def Obligations.BlankExactlyWhenEveryCodeIsZero : Prop :=
  ∀ (ctx : Context) (wsel : WidthSel) (x y : BitVec 12) (s : State), configOk s → wsel ≠ .reserved →
    ¬ (wsel = .multicolor ∧ s.cfgFg.getLsbD 8 = true) → s.rasterFmt = 1#1 → regionInside s ctx x.toNat y.toNat →
    ∃ t, exec (.encode ctx wsel x y) s = .next t ∧
      (t.status.blkBlank = true ↔ ∀ j, j < dataBytes ctx → bufByte t.buf j = 0#8) ∧
      (∀ width : PixelWidth, width = (if t.status.blkMc then .multicolor else .hires) →
        (t.status.blkBlank = true ↔
          ∀ n p, (scanOrder ctx width)[n]? = some p → codeAt s x.toNat y.toNat ctx width n p.1 p.2 = 0#2))

/-- R114 case 1, R73, R74: under a foreground override every pixel's bit of the encoded block says whether the pixel is the
foreground. -/
def Obligations.ForegroundOverrideEncodesTheForeground : Prop :=
  ∀ (ctx : Context) (x y : BitVec 12) (s : State), s.cfgFg.getLsbD 8 = true → s.cfgMc.getLsbD 16 = false →
    s.rasterFmt = 1#1 → regionInside s ctx x.toNat y.toNat →
    ∃ t, exec (.encode ctx .auto x y) s = .next t ∧ t.status.blkMc = false ∧
      ∀ u v, u < regionWidth ctx → v < regionHeight ctx →
        (bufByte t.buf (v * rowBytes ctx + u / 8)).getLsbD (7 - u % 8) =
          decide (rasterRead s (x.toNat + u) (y.toNat + v) = s.cfgFg.extractLsb' 0 8)

/-- R136, which the spec marks as derived from R132 and R114: two encodings of the same block under the same configuration
give the same bytes, flags and roles, whatever else the two states hold. -/
def Obligations.EncodeIsDeterministic : Prop :=
  ∀ (ctx : Context) (wsel : WidthSel) (x y : BitVec 12) (s u : State), configOk s → wsel ≠ .reserved →
    ¬ (wsel = .multicolor ∧ s.cfgFg.getLsbD 8 = true) → s.rasterFmt = 1#1 → regionInside s ctx x.toNat y.toNat →
    u.ctrl = s.ctrl → u.cfgBg = s.cfgBg → u.cfgFg = s.cfgFg → u.cfgMc = s.cfgMc → u.cfgHint = s.cfgHint →
    u.cfgSprPad = s.cfgSprPad → u.rasterDim = s.rasterDim → u.rasterFmt = s.rasterFmt →
    (∀ a b, a < regionWidth ctx → b < regionHeight ctx →
      rasterRead u (x.toNat + a) (y.toNat + b) = rasterRead s (x.toNat + a) (y.toNat + b)) →
    ∃ t v, exec (.encode ctx wsel x y) s = .next t ∧ exec (.encode ctx wsel x y) u = .next v ∧
      (∀ j, j < blockLength ctx → bufByte v.buf j = bufByte t.buf j) ∧ v.roles = t.roles ∧ v.result = t.result ∧
      v.status.blkMc = t.status.blkMc ∧ v.status.blkBlank = t.status.blkBlank

/-- R134: at multicolor width the right pixel of a pair has no effect on the block. -/
def Obligations.RightPixelsDoNotCountInMulticolor : Prop :=
  ∀ (ctx : Context) (x y : BitVec 12) (s : State) (m : Memory), s.cfgFg.getLsbD 8 = false →
    s.rasterFmt = 1#1 → regionInside s ctx x.toNat y.toNat →
    (∀ i b, 2 * i < regionWidth ctx → b < regionHeight ctx →
      Memory.read m (pixelAddress (x.toNat + 2 * i) (y.toNat + b)) = rasterRead s (x.toNat + 2 * i) (y.toNat + b)) →
    ∃ t, exec (.encode ctx .multicolor x y) s = .next t ∧
      exec (.encode ctx .multicolor x y) { s with raster := m } = .next { t with raster := m }

/-! ### Block dictionary (spec/43_dictionary.md) -/

/-- R160, R161: `LOOKUP_INSERT` of a block that the dictionary holds answers the first index that equals it, even when the
dictionary is full, and clears `NEW`. -/
def Obligations.LookupFindsTheFirstEqualBlock : Prop :=
  ∀ (s : State) (i : Nat), s.status.blkV = true → s.status.blkSpr = false → i < 65536 →
    s.dict[i]? = some (bufBlock s) → (∀ j, j < i → s.dict[j]? ≠ some (bufBlock s)) →
    exec .lookupInsert s =
      .next { s with result := BitVec.ofNat 32 i, status := { s.status with newEntry := false } }

/-- R160, R163: `LOOKUP_INSERT` of a new block with room appends it at `DICT_COUNT`, records it if it is the first all-zero
one, and sets `NEW`. -/
def Obligations.LookupAppendsANewBlock : Prop :=
  ∀ s : State, s.status.blkV = true → s.status.blkSpr = false → bufBlock s ∉ s.dict →
    s.dict.length ≠ s.dictCap → s.dict.length < 65536 →
    exec .lookupInsert s =
      .next { s with
        dict := s.dict ++ [bufBlock s]
        emptyRec :=
          if bufBlock s = Vector.replicate 8 0#8 ∧ s.emptyRec = none then some (BitVec.ofNat 16 s.dict.length)
          else s.emptyRec
        result := BitVec.ofNat 32 (65536 + s.dict.length)
        status := { s.status with newEntry := true } }

/-- R160, R162: a new block and a full dictionary raise CapacityError and change nothing else. -/
def Obligations.FullDictionaryRaisesCapacityError : Prop :=
  ∀ s : State, s.status.blkV = true → s.status.blkSpr = false → bufBlock s ∉ s.dict → s.dict.length = s.dictCap →
    exec .lookupInsert s = .next (faulted (encode .lookupInsert) 1#4 0xFFFFFFFF#32 s)

/-- R230: SequenceError when no block is buffered, or a sprite. -/
def Obligations.LookupWithoutACharacterRaisesSequenceError : Prop :=
  ∀ s : State, (s.status.blkV = false ∨ s.status.blkSpr = true) →
    exec .lookupInsert s = .next (faulted (encode .lookupInsert) 7#4 0xFFFFFFFF#32 s)

/-- R164, which the spec marks as derived from R160 and R50: inserting the same block twice answers the same index both times,
the second time as found, and the dictionary grows by at most one. -/
def Obligations.InsertionIsIdempotent : Prop :=
  ∀ s : State, Inv s → s.status.blkV = true → s.status.blkSpr = false →
    (bufBlock s ∈ s.dict ∨ s.dict.length < s.dictCap) →
    ∃ t u, exec .lookupInsert s = .next t ∧ exec .lookupInsert t = .next u ∧
      (u.result.extractLsb' 0 16 = t.result.extractLsb' 0 16) ∧ u.status.newEntry = false ∧
      s.dict.length ≤ t.dict.length ∧ t.dict.length ≤ s.dict.length + 1 ∧ u.dict = t.dict ∧
      t.dict[(t.result.extractLsb' 0 16).toNat]? = some (bufBlock s)

/-- R166, and R167 and R168, which the spec marks as derived from it: `PROMOTE_EMPTY` with an empty block at `e > 0`. Entry 0
becomes the all-zero one and entry `e` what entry 0 was, every other entry stays, and the count; each written map cell is
relabelled, its attribute byte and the unwritten cells untouched; `EMPTY_REC` names 0. -/
def Obligations.PromotionSwapsAndRelabels : Prop :=
  ∀ (s : State) (e : Index), Inv s → s.emptyRec = some e → e ≠ 0#16 →
    ∃ t, exec .promoteEmpty s = .next t ∧
      SameOutsideImage s t ∧ t.status = s.status ∧ t.errCmd = s.errCmd ∧ t.errCell = s.errCell ∧
      t.roles = s.roles ∧ t.buf = s.buf ∧
      t.dict.length = s.dict.length ∧ t.dict[0]? = some zeroBlock ∧ t.dict[e.toNat]? = s.dict[0]? ∧
      (∀ j, j ≠ 0 → j ≠ e.toNat → t.dict[j]? = s.dict[j]?) ∧
      t.emptyRec = some 0#16 ∧ t.result = BitVec.ofNat 32 (65536 + e.toNat) ∧
      (∀ k, (sparseGet? s.cells k = none → sparseGet? t.cells k = none) ∧
        (∀ c, sparseGet? s.cells k = some c →
          (c.idx = 0#16 → sparseGet? t.cells k = some { c with idx := e }) ∧
          (c.idx = e → sparseGet? t.cells k = some { c with idx := 0#16 }) ∧
          (c.idx ≠ 0#16 → c.idx ≠ e → sparseGet? t.cells k = some c)))

/-- R166, corner cases 1 and 2: without an empty block, or with it at 0 already, `PROMOTE_EMPTY` only writes `RESULT`. -/
def Obligations.PromotionWithNothingToMove : Prop :=
  ∀ s : State,
    (s.emptyRec = none → exec .promoteEmpty s = .next { s with result := 0x80000000#32 }) ∧
    (s.emptyRec = some 0#16 → exec .promoteEmpty s = .next { s with result := 0#32 })

/-! ### Cell sequencer (spec/44_charmap.md) -/

/-- R180, R181, R182, R184: `BUILD_CELL` in range, below the map's capacity, and with room for one entry or its block in the
dictionary already, completes. It encodes the cell, the character region whose top-left pixel is `(8·cx, 8·cy)` (at the width
the detector gives in a multicolor image), inserts its block, and writes the map cell with the block's index and the attribute
byte; no other cell, and no entry below the old count, changes. -/
def Obligations.BuildCellWritesItsCell : Prop :=
  ∀ (cx cy : BitVec 12) (s : State), Inv s → configOk s → s.rasterFmt = 1#1 →
    cx.toNat < mapWidth s → cy.toNat < mapHeight s → cy.toNat * mapWidth s + cx.toNat < s.mapCap →
    (s.dict.length < s.dictCap ∨ bufBlock (encodeCell cx.toNat cy.toNat s) ∈ s.dict) →
    ∃ t i a, exec (.buildCell cx cy) s = .next t ∧
      SameOutsideImage s t ∧ SameFaultRecord s t ∧ t.status.asw = s.status.asw ∧
      t.status.blkV = true ∧ t.status.blkSpr = false ∧
      (t.status.blkMc = true ↔
        s.cfgFg.getLsbD 8 = false ∧ (s.cfgMc.getLsbD 16 = true ∨ s.ctrl.getLsbD 0 = true) ∧
          ¬ hiresByClosedForm s .character (8 * cx.toNat) (8 * cy.toNat)) ∧
      t.buf = (encodeCell cx.toNat cy.toNat s).buf ∧ t.roles = (encodeCell cx.toNat cy.toNat s).roles ∧
      t.status.blkBlank = (encodeCell cx.toNat cy.toNat s).status.blkBlank ∧
      HoldsCell s cx.toNat cy.toNat t ∧
      sparseGet? t.cells (cy.toNat * mapWidth s + cx.toNat) = some { idx := i, attr := a } ∧
      (∀ k, k ≠ cy.toNat * mapWidth s + cx.toNat → sameCell s t k) ∧
      t.dict[i.toNat]? = some (bufBlock t) ∧ (∀ j, j < s.dict.length → t.dict[j]? = s.dict[j]?) ∧
      (bufBlock t ∈ s.dict → t.status.newEntry = false ∧ t.dict = s.dict ∧ t.emptyRec = s.emptyRec) ∧
      (bufBlock t ∉ s.dict → t.status.newEntry = true ∧ t.dict = s.dict ++ [bufBlock t] ∧
        t.emptyRec = if bufBlock t = zeroBlock then some i else s.emptyRec) ∧
      t.result = BitVec.ofNat 32 ((if t.status.newEntry then 65536 else 0) + i.toNat) ∧
      a = ((t.roles.uq.getD (s.cfgAttr.extractLsb' 0 8)) &&&
            (if s.cfgFg.getLsbD 8 = false ∧ (s.cfgMc.getLsbD 16 = true ∨ s.ctrl.getLsbD 0 = true)
             then s.cfgAttr.extractLsb' 16 8 else s.cfgAttr.extractLsb' 8 8)) |||
          (if (s.cfgFg.getLsbD 8 = false ∧ (s.cfgMc.getLsbD 16 = true ∨ s.ctrl.getLsbD 0 = true)) ∧
              (t.status.blkMc = s.ctrl.getLsbD 2)
           then s.cfgAttr.extractLsb' 24 8 else 0#8)

/-- R181, R188, R228: a cell at or beyond the map's capacity raises CapacityError with the cell's index, and a raster with more
cells than the map holds raises it in `BUILD_CHARMAP` with no cell; both before any change. -/
def Obligations.CellsBeyondTheMapRaiseCapacityError : Prop :=
  ∀ s : State, configOk s → s.rasterFmt = 1#1 →
    (∀ cx cy : BitVec 12, cx.toNat < mapWidth s → cy.toNat < mapHeight s → s.mapCap ≤ cy.toNat * mapWidth s + cx.toNat →
      exec (.buildCell cx cy) s =
        .next (faulted (encode (.buildCell cx cy)) 1#4 (BitVec.ofNat 32 (cy.toNat * mapWidth s + cx.toNat)) s)) ∧
    (s.mapCap < mapWidth s * mapHeight s →
      exec .buildCharmap s = .next (faulted (encode .buildCharmap) 1#4 0xFFFFFFFF#32 s))

/-- R193: a cell whose block is new to a full dictionary raises CapacityError with the cell's index. The roles and the buffer
hold its encoding; the maps, the dictionary and `RESULT` are unchanged. -/
def Obligations.BuildCellIntoAFullDictionary : Prop :=
  ∀ (cx cy : BitVec 12) (s : State), configOk s → s.rasterFmt = 1#1 →
    cx.toNat < mapWidth s → cy.toNat < mapHeight s → cy.toNat * mapWidth s + cx.toNat < s.mapCap →
    s.dict.length = s.dictCap → bufBlock (encodeCell cx.toNat cy.toNat s) ∉ s.dict →
    ∃ t, exec (.buildCell cx cy) s = .next t ∧ SameOutsideImage s t ∧ SameTables s t ∧ t.result = s.result ∧
      t.status.fault = true ∧ t.status.err = 1#4 ∧ t.status.ign = s.status.ign ∧ t.errCmd = encode (.buildCell cx cy) ∧
      t.errCell = BitVec.ofNat 32 (cy.toNat * mapWidth s + cx.toNat) ∧
      t.status.asw = s.status.asw ∧ t.status.newEntry = s.status.newEntry ∧
      t.buf = (encodeCell cx.toNat cy.toNat s).buf ∧ t.roles = (encodeCell cx.toNat cy.toNat s).roles ∧
      t.status.blkV = true ∧ t.status.blkSpr = false ∧
      t.status.blkMc = (encodeCell cx.toNat cy.toNat s).status.blkMc ∧
      t.status.blkBlank = (encodeCell cx.toNat cy.toNat s).status.blkBlank ∧ HoldsCell s cx.toNat cy.toNat t

/-- R180, R182, R188, R189: `BUILD_CHARMAP` on an indexed raster whose cells fit the map, and whose distinct blocks, all of
them in some list, fit the dictionary, completes without a fault. Exactly the cells of the raster are written, each names the
entry that holds its own block, no entry is doubled, and every entry is in that list. -/
def Obligations.BuildCharmapWritesEveryCell : Prop :=
  ∀ (s : State) (blocks : List Block), Inv s → configOk s → s.rasterFmt = 1#1 → mapWidth s * mapHeight s ≤ s.mapCap →
    (∀ cx cy, cx < mapWidth s → cy < mapHeight s → bufBlock (encodeCell cx cy s) ∈ blocks) → blocks.length ≤ s.dictCap →
    ∃ t, exec .buildCharmap s = .next t ∧ SameOutsideImage s t ∧ SameFaultRecord s t ∧
      (∀ k, (sparseGet? t.cells k).isSome = true ↔ k < mapWidth s * mapHeight s) ∧
      (∀ k c, sparseGet? t.cells k = some c → c.idx.toNat < t.dict.length) ∧
      (∀ cx cy, cx < mapWidth s → cy < mapHeight s → ∃ c u, sparseGet? t.cells (cy * mapWidth s + cx) = some c ∧
        HoldsCell s cx cy u ∧ t.dict[c.idx.toNat]? = some (bufBlock u)) ∧
      t.dict.Nodup ∧ (∀ b ∈ t.dict, b ∈ blocks) ∧ t.dict.length ≤ blocks.length ∧
      t.dict.length ≤ mapWidth s * mapHeight s ∧
      (zeroBlock ∈ t.dict → t.dict[0]? = some zeroBlock ∧ t.emptyRec = some 0#16) ∧
      t.result = BitVec.ofNat 32 (t.dict.length + s.cfgOffset.toNat) ∧
      (t.status.asw = true ↔ 256 < t.dict.length + s.cfgOffset.toNat)

/-- R188, corner case 1: a raster without a whole cell builds nothing and finalizes an empty dictionary. -/
def Obligations.BuildCharmapOfNoCells : Prop :=
  ∀ s : State, configOk s → s.rasterFmt = 1#1 → mapWidth s * mapHeight s = 0 →
    exec .buildCharmap s =
      .next { s with
        dict := [], emptyRec := none, cells := [], result := BitVec.ofNat 32 s.cfgOffset.toNat
        status :=
          { s.status with
            blkV := false, blkSpr := false, blkMc := false, blkBlank := false, newEntry := false
            asw := decide (256 < s.cfgOffset.toNat) } }

/-- R193, R188: the first cell in raster order whose block is new to a full dictionary stops `BUILD_CHARMAP` with CapacityError.
The cells before it are built; the roles and the buffer hold the encoding of that cell, and nothing else of it is written; no
later cell is built, and no promotion and no warning test run. -/
def Obligations.BuildCharmapStopsAtTheOverflowingCell : Prop :=
  ∀ (s u : State) (n cx cy : Nat), configOk s → s.rasterFmt = 1#1 → mapWidth s * mapHeight s ≤ s.mapCap →
    (cellsInRasterOrder s)[n]? = some (cx, cy) → buildCells ((cellsInRasterOrder s).take n) (dataClear s) = .done () u →
    u.dict.length = u.dictCap → bufBlock (encodeCell cx cy u) ∉ u.dict →
    exec .buildCharmap s = .next (faulted (encode .buildCharmap) 1#4 (BitVec.ofNat 32 n) (encodeCell cx cy u)) ∧
      n = cy * mapWidth s + cx ∧ SameTables u (encodeCell cx cy u) ∧ (encodeCell cx cy u).result = s.result ∧
      SameOutsideImage s u ∧ HoldsCell u cx cy (encodeCell cx cy u)

/-- R252 step 3: on an image of at least one cell, `CLEAR`, then `BUILD_CELL` for every cell in raster order, then `FINALIZE`,
if no command of them faults, give the state that `BUILD_CHARMAP` gives. Coordinates of cells fit the command's operands. -/
def Obligations.BuildCharmapIsCellByCell : Prop :=
  ∀ s u t : State, s.status = Status.clear → s.errCmd = 0#32 → s.errCell = 0xFFFFFFFF#32 →
    0 < mapWidth s * mapHeight s → mapWidth s ≤ 4096 → mapHeight s ≤ 4096 → mapWidth s * mapHeight s ≤ s.mapCap →
    (cellsInRasterOrder s).foldl
      (fun o c => match o with
        | .next v => exec (.buildCell (BitVec.ofNat 12 c.1) (BitVec.ofNat 12 c.2)) v
        | .fault r => .fault r
        | .refused r => .refused r)
      (exec .clear s) = Host.Outcome.next u →
    u.status.fault = false → exec .finalize u = .next t → exec .buildCharmap s = .next t

/-- R190, R191: `FINALIZE` promotes, then reports the count with the offset in `RESULT`, and sets the warning exactly when
that sum exceeds 256 or the warning stood before. Nothing else changes but what the promotion changes. -/
def Obligations.FinalizePromotesAndTestsTheAddressSpace : Prop :=
  ∀ s : State, ∃ p, exec .promoteEmpty s = .next p ∧
    exec .finalize s =
      .next { p with
        result := BitVec.ofNat 32 (s.dict.length + s.cfgOffset.toNat)
        status :=
          { s.status with asw := s.status.asw || decide (256 < s.dict.length + s.cfgOffset.toNat) } }

/-! ### Host access (spec/45_host_access.md) -/

/-- R200, R201: `CLEAR` makes the per-image structures fresh, leaves the fault state, and clears `RESULT` and the roles; the
configuration, the raster and the capacities stay. -/
def Obligations.ClearStartsAFreshImage : Prop :=
  ∀ s : State, exec .clear s =
    .next { s with
      dict := [], emptyRec := none, cells := [], status := Status.clear, errCmd := 0#32, errCell := 0xFFFFFFFF#32
      result := 0#32, roles := { bg := none, mc1 := none, mc2 := none, uq := none } }

/-- R202: `READ.DICT` answers the byte of an entry below the count, and raises RangeError otherwise. -/
def Obligations.ReadDictAnswersTheByte : Prop :=
  ∀ (idx : Index) (byte : Byte) (s : State),
    (∀ b v, s.dict[idx.toNat]? = some b → b[byte.toNat]? = some v →
      exec (.readDict idx byte) s = .next { s with result := v.setWidth 32 }) ∧
    ((s.dict.length ≤ idx.toNat ∨ 8 ≤ byte.toNat) →
      exec (.readDict idx byte) s = .next (faulted (encode (.readDict idx byte)) 5#4 0xFFFFFFFF#32 s))

/-- R202: `READ.MAP` answers the raw index plus the offset, without wrap, and `READ.CMAP` the attribute byte, of a written
cell below the capacity; both raise RangeError otherwise. -/
def Obligations.ReadMapsAnswerTheCell : Prop :=
  ∀ (idx : Index) (s : State),
    (∀ c, sparseGet? s.cells idx.toNat = some c → idx.toNat < s.mapCap →
      exec (.readMap idx) s = .next { s with result := BitVec.ofNat 32 (c.idx.toNat + s.cfgOffset.toNat) } ∧
      exec (.readCmap idx) s = .next { s with result := c.attr.setWidth 32 }) ∧
    ((sparseGet? s.cells idx.toNat = none ∨ s.mapCap ≤ idx.toNat) →
      exec (.readMap idx) s = .next (faulted (encode (.readMap idx)) 5#4 0xFFFFFFFF#32 s) ∧
      exec (.readCmap idx) s = .next (faulted (encode (.readCmap idx)) 5#4 0xFFFFFFFF#32 s))

/-- R192, R203, R226: of an image that no fault has aborted (`STATUS.FAULT = 0`), the character-map byte that the host emits
for a written cell is the low 8 bits of what `READ.MAP` answers, the attribute byte what `READ.CMAP` answers, and the
character set, entry by entry (log entry 16), what `READ.DICT` answers. Of an aborted image nothing is emitted. The attribute
byte is that of a host that emits the attribute plane: that it is given whatever `CTRL.ATTR_EN` is, is the model's choice (log
entry 17). -/
def Obligations.EmissionOfAValidImageIsWhatReadsAnswer : Prop :=
  ∀ s : State,
    (imageValid s →
      (∀ (idx : Index) (c : MapCell), sparseGet? s.cells idx.toNat = some c → idx.toNat < s.mapCap →
        ∃ t u, exec (.readMap idx) s = .next t ∧ emittedMapByte s idx.toNat = some (t.result.extractLsb' 0 8) ∧
          exec (.readCmap idx) s = .next u ∧ emittedAttribute s idx.toNat = some (u.result.extractLsb' 0 8)) ∧
      ∃ set, emittedCharset s = some set ∧ set.length = 8 * s.dict.length ∧
        ∀ (idx : Index) (byte : Byte), idx.toNat < s.dict.length → byte.toNat < 8 →
          ∃ t, exec (.readDict idx byte) s = .next t ∧
            set[8 * idx.toNat + byte.toNat]? = some (t.result.extractLsb' 0 8)) ∧
    (¬ imageValid s → (∀ k, emittedMapByte s k = none ∧ emittedAttribute s k = none) ∧ emittedCharset s = none)

/-- R202, R48: `READ.BUF` answers a byte below the block's length, 8 of a character and 64 of a sprite, and raises RangeError
otherwise or when no block is buffered. -/
def Obligations.ReadBufAnswersTheByte : Prop :=
  ∀ (byte : Byte) (s : State),
    (s.status.blkV = true → (byte.toNat < 8 ∨ (s.status.blkSpr = true ∧ byte.toNat < 64)) →
      ∃ v, s.buf[byte.toNat]? = some v ∧ exec (.readBuf byte) s = .next { s with result := v.setWidth 32 }) ∧
    ((s.status.blkV = false ∨ (s.status.blkSpr = false ∧ 8 ≤ byte.toNat) ∨ 64 ≤ byte.toNat) →
      exec (.readBuf byte) s = .next (faulted (encode (.readBuf byte)) 5#4 0xFFFFFFFF#32 s))

/-! ### The whole machine -/

/-- R225, R261: a command that faults leaves `RESULT` and records its word and a code that the unit raises; it never touches
the configuration, the raster or the capacities, and neither does one that completes (spec/10_state.md section 3). -/
def Obligations.FaultsAreRecordedAndLeaveTheResult : Prop :=
  ∀ (i : Instr) (s : State), i.wellFormed = true → s.status.fault = false →
    ∃ t, exec i s = .next t ∧ SameOutsideImage s t ∧
      (t.status.fault = true → t.result = s.result ∧ t.errCmd = encode i ∧
        (t.status.err = 1#4 ∨ t.status.err = 2#4 ∨ t.status.err = 5#4 ∨ t.status.err = 6#4 ∨ t.status.err = 7#4)) ∧
      (t.status.fault = false → i ≠ .clear → SameFaultRecord s t)

/-- R50, invariant 2: an entry of the dictionary keeps its index and its bytes through every command but the data clears and
the promotions. -/
def Obligations.EntriesKeepTheirIndices : Prop :=
  ∀ (i : Instr) (s t : State) (n : Nat) (b : Block), i ≠ .clear → i ≠ .promoteEmpty → i ≠ .finalize → i ≠ .buildCharmap →
    exec i s = .next t → s.dict[n]? = some b → t.dict[n]? = some b

/-- R191: the warning stands through every command but the two that do a data clear. -/
def Obligations.TheWarningStandsUntilADataClear : Prop :=
  ∀ (i : Instr) (s t : State), i ≠ .clear → i ≠ .buildCharmap → exec i s = .next t → s.status.asw = true →
    t.status.asw = true

/-- R187: `CTRL.ATTR_EN` does not change what the unit computes: every command gives the same next state but for that bit
itself, whichever of its values it has. -/
def Obligations.AttributeEnableChangesNothing : Prop :=
  ∀ (i : Instr) (s : State), ∃ t, exec i s = .next t ∧
    exec i { s with ctrl := s.ctrl ^^^ 2#3 } = .next { t with ctrl := t.ctrl ^^^ 2#3 }

/-- R233, R227: only `CLEAR`, the word 0 written to `CMD`, and the hardware reset leave the fault state. That they come
through the host's queue is the model's choice (log entry 3). -/
def Obligations.OnlyClearAndResetLeaveTheFaultState : Prop :=
  ∀ s t : State, s.status.fault = true → step s = .next t → t.status.fault = false →
    ∃ rest, s.queue = .write .word 0x2C#8 0#32 :: rest ∨ s.queue = .hardReset :: rest

/-- R72, R55: no step but the host's connecting of an image (the model's event, log entry 3) changes the raster, and none
changes a capacity. That the hardware reset leaves the host's raster connected is the model's choice (log entry 6): R250 does
not list the raster. -/
def Obligations.OnlyTheHostChangesTheRaster : Prop :=
  ∀ s t : State, step s = .next t →
    t.dictCap = s.dictCap ∧ t.mapCap = s.mapCap ∧
      (t.raster = s.raster ∨ ∃ pixels rest, s.queue = .connectRaster pixels :: rest)

/-- R250, R50, R52, R45: the state after reset is good. -/
def Obligations.ResetIsAGoodState : Prop := Inv State.reset

/-- R50, R49, R51, R52, R45, R57: every step keeps a good state good: the dictionary has no doubled entry and is within its
capacity, `EMPTY_REC` names the all-zero entry, every written map cell names an entry, the fault record and the buffer's flags
are consistent, and the raster keeps its canonical form (the model's choice, log entry 2). -/
def Obligations.EveryStepKeepsAGoodState : Prop :=
  ∀ s t : State, Inv s → step s = .next t → Inv t
end

