-- ==== Sys2Proof/Laws/Bits.lean ====
section
/-! SUPPORT. Fields of words as numbers: what a concatenation and a field are, in a form that `omega` works on. -/

namespace Sys2Proof

/-- A concatenation as a number. -/
theorem toNat_append_mul {m n : Nat} (a : BitVec m) (b : BitVec n) : (a ++ b).toNat = a.toNat * 2 ^ n + b.toNat := by
  rw [BitVec.toNat_append, ← Nat.shiftLeft_add_eq_or_of_lt b.isLt, Nat.shiftLeft_eq]

/-- A field as a number. -/
theorem toNat_field {m : Nat} (w : BitVec m) (lo len : Nat) :
    (w.extractLsb' lo len).toNat = w.toNat / 2 ^ lo % 2 ^ len := by
  rw [BitVec.extractLsb'_toNat, Nat.shiftRight_eq_div_pow]

/-- A bit as a number. -/
theorem getLsbD_eq_decide {m : Nat} (w : BitVec m) (i : Nat) : w.getLsbD i = decide (w.toNat / 2 ^ i % 2 = 1) := by
  rw [BitVec.getLsbD, Nat.testBit_eq_decide_div_mod_eq]

theorem toNat_ofBool_le (b : Bool) : (BitVec.ofBool b).toNat ≤ 1 := by cases b <;> decide

theorem toNat_contextBit_le (c : Context) : (contextBit c).toNat ≤ 1 := by cases c <;> decide

theorem toNat_widthBit_le (w : PixelWidth) : (widthBit w).toNat ≤ 1 := by cases w <;> decide

theorem toNat_widthSelBits_le (w : WidthSel) : (widthSelBits w).toNat ≤ 3 := by cases w <;> decide

@[simp] theorem contextOf_contextBit (c : Context) : contextOf (contextBit c) = c := by cases c <;> rfl

@[simp] theorem contextBit_contextOf (b : BitVec 1) : contextBit (contextOf b) = b := by revert b; decide

@[simp] theorem widthOf_widthBit (w : PixelWidth) : widthOf (widthBit w) = w := by cases w <;> rfl

@[simp] theorem widthBit_widthOf (b : BitVec 1) : widthBit (widthOf b) = b := by revert b; decide

@[simp] theorem widthSelOf_widthSelBits (w : WidthSel) : widthSelOf (widthSelBits w) = w := by cases w <;> rfl

@[simp] theorem widthSelBits_widthSelOf (b : BitVec 2) : widthSelBits (widthSelOf b) = b := by revert b; decide

theorem widthSelBits_eq_three (w : WidthSel) : widthSelBits w = 3#2 ↔ w = .reserved := by cases w <;> decide

end Sys2Proof
end

