-- ==== Sys2Proof/Laws/Memory.lean ====
section
/-! SUPPORT. The laws of sparse storage: a read after a write, and the canonical form that every operation keeps. -/

namespace Sys2Proof.Machine

variable {α : Type}

theorem sparseGet?_set_same (m : List (Nat × α)) (k : Nat) (v : α) : sparseGet? (sparseSet m k v) k = some v := by
  induction m with
  | nil => simp [sparseSet, sparseGet?]
  | cons c m ih =>
    obtain ⟨a, u⟩ := c
    simp only [sparseSet]
    split
    · simp [sparseGet?]
    · split
      · simp [sparseGet?]
      · simp [sparseGet?, ih]; omega

theorem sparseGet?_set_other (m : List (Nat × α)) (k a : Nat) (v : α) (h : a ≠ k) :
    sparseGet? (sparseSet m k v) a = sparseGet? m a := by
  induction m with
  | nil => simp [sparseSet, sparseGet?]; omega
  | cons c m ih =>
    obtain ⟨b, u⟩ := c
    simp only [sparseSet]
    split
    · have : k ≠ a := fun e => h e.symm
      simp [sparseGet?, this]
    · split
      · rename_i hk
        subst hk
        have : k ≠ a := fun e => h e.symm
        simp [sparseGet?, this]
      · simp [sparseGet?, ih]

theorem mem_sparseSet (m : List (Nat × α)) (k : Nat) (v : α) (c : Nat × α) (h : c ∈ sparseSet m k v) :
    c = (k, v) ∨ c ∈ m := by
  induction m with
  | nil => simpa [sparseSet] using h
  | cons d m ih =>
    obtain ⟨a, u⟩ := d
    simp only [sparseSet] at h
    split at h
    · simpa using h
    · split at h
      · rcases List.mem_cons.1 h with h | h
        · exact .inl h
        · exact .inr (List.mem_cons_of_mem _ h)
      · rcases List.mem_cons.1 h with h | h
        · exact .inr (h ▸ List.mem_cons_self)
        · exact (ih h).imp_right (List.mem_cons_of_mem _)

theorem sparseSorted_iff (m : List (Nat × α)) : sparseSorted m = true ↔ (m.map Prod.fst).Pairwise (· < ·) := by
  simp [sparseSorted]

theorem sparseSorted_set (m : List (Nat × α)) (k : Nat) (v : α) (h : sparseSorted m = true) :
    sparseSorted (sparseSet m k v) = true := by
  rw [sparseSorted_iff] at h ⊢
  induction m with
  | nil => simp [sparseSet]
  | cons c m ih =>
    obtain ⟨a, u⟩ := c
    simp only [List.map_cons, List.pairwise_cons] at h
    simp only [sparseSet]
    split
    · rename_i hk
      simp only [List.map_cons, List.pairwise_cons]
      refine ⟨?_, h.1, h.2⟩
      intro b hb
      rcases List.mem_cons.1 hb with rfl | hb
      · exact hk
      · exact Nat.lt_trans hk (h.1 b hb)
    · split
      · rename_i hk
        subst hk
        simpa using h
      · rename_i h1 h2
        simp only [List.map_cons, List.pairwise_cons]
        refine ⟨?_, ih h.2⟩
        intro b hb
        obtain ⟨c, hc, rfl⟩ := List.mem_map.1 hb
        rcases mem_sparseSet m k v c hc with rfl | hc
        · simp only; omega
        · exact h.1 _ (List.mem_map_of_mem hc)

theorem sparseSorted_erase (m : List (Nat × α)) (k : Nat) (h : sparseSorted m = true) :
    sparseSorted (sparseErase m k) = true := by
  rw [sparseSorted_iff] at h ⊢
  exact h.sublist ((List.filter_sublist (l := m)).map Prod.fst)

theorem sparseGet?_erase_same (m : List (Nat × α)) (k : Nat) : sparseGet? (sparseErase m k) k = none := by
  induction m with
  | nil => rfl
  | cons c m ih =>
    obtain ⟨a, u⟩ := c
    unfold sparseErase at ih ⊢
    by_cases h : a = k <;> simp [h, sparseGet?, ih]

theorem sparseGet?_erase_other (m : List (Nat × α)) (k a : Nat) (h : a ≠ k) :
    sparseGet? (sparseErase m k) a = sparseGet? m a := by
  induction m with
  | nil => rfl
  | cons c m ih =>
    obtain ⟨b, u⟩ := c
    unfold sparseErase at ih ⊢
    by_cases hb : b = k
    · have : k ≠ a := fun e => h e.symm
      simp [hb, sparseGet?, this, ih]
    · simp [hb, sparseGet?, ih]

theorem sparseGet?_mem (m : List (Nat × α)) (k : Nat) (v : α) (h : sparseGet? m k = some v) : (k, v) ∈ m := by
  induction m with
  | nil => simp [sparseGet?] at h
  | cons c m ih =>
    obtain ⟨a, u⟩ := c
    simp only [sparseGet?] at h
    split at h
    · rename_i ha
      cases h
      simp [ha]
    · exact List.mem_cons_of_mem _ (ih h)

/-- Relabelling values does not move them. -/
theorem sparseGet?_map (m : List (Nat × α)) (f : α → α) (k : Nat) :
    sparseGet? (m.map fun c => (c.1, f c.2)) k = (sparseGet? m k).map f := by
  induction m with
  | nil => rfl
  | cons c m ih =>
    obtain ⟨a, u⟩ := c
    simp only [List.map_cons, sparseGet?]
    split <;> simp [ih]

theorem sparseSorted_map (m : List (Nat × α)) (f : α → α) (h : sparseSorted m = true) :
    sparseSorted (m.map fun c => (c.1, f c.2)) = true := by
  rw [sparseSorted_iff] at h ⊢
  simpa [List.map_map, Function.comp_def] using h

theorem Memory.wf_iff (m : Memory) :
    Memory.wf m = true ↔ sparseSorted m = true ∧ ∀ c ∈ m, c.2 ≠ Memory.unlisted ∧ c.1 < Memory.size := by
  simp [Memory.wf, List.all_eq_true]

theorem Memory.read_write_same (m : Memory) (a : Nat) (b : Byte) : Memory.read (Memory.write m a b) a = b := by
  unfold Memory.read Memory.write
  split
  · simp [sparseGet?_erase_same, *]
  · simp [sparseGet?_set_same]

theorem Memory.read_write_other (m : Memory) (a k : Nat) (b : Byte) (h : k ≠ a) :
    Memory.read (Memory.write m a b) k = Memory.read m k := by
  unfold Memory.read Memory.write
  split
  · rw [sparseGet?_erase_other _ _ _ h]
  · rw [sparseGet?_set_other _ _ _ _ h]

/-- A write of one byte keeps the canonical form. -/
theorem Memory.write_wf (m : Memory) (a : Nat) (b : Byte) (ha : a < Memory.size) (h : Memory.wf m = true) :
    Memory.wf (Memory.write m a b) = true := by
  rw [Memory.wf_iff] at h ⊢
  unfold Memory.write
  split
  · exact ⟨sparseSorted_erase m a h.1, fun c hc => h.2 c (List.mem_of_mem_filter hc)⟩
  · rename_i hb
    refine ⟨sparseSorted_set m a b h.1, fun c hc => ?_⟩
    rcases mem_sparseSet m a b c hc with rfl | hc
    · exact ⟨hb, ha⟩
    · exact h.2 c hc

/-- An image given in any order is held in canonical form. -/
theorem Memory.ofCells_wf (pixels : List Host.Cell) (h : ∀ c ∈ pixels, c.1 < Memory.size) :
    Memory.wf (Memory.ofCells pixels) = true := by
  suffices H : ∀ m : Memory, Memory.wf m = true →
      Memory.wf (pixels.foldl (fun m c => Memory.write m c.1 c.2) m) = true from H [] (by decide)
  induction pixels with
  | nil => exact fun m hm => hm
  | cons c cs ih =>
    intro m hm
    exact ih (fun d hd => h d (List.mem_cons_of_mem _ hd)) _
      (Memory.write_wf m c.1 c.2 (h c List.mem_cons_self) hm)

/-- Two pixels with 16-bit columns have the same address only if they are the same pixel. -/
theorem pixelAddress_inj (x y u v : Nat) (hx : x < 65536) (hu : u < 65536)
    (h : pixelAddress x y = pixelAddress u v) : x = u ∧ y = v := by
  unfold pixelAddress at h
  omega

end Sys2Proof.Machine
end

