-- ==== Sys2Proof/Laws/State.lean ====
section
/-! SUPPORT. What each named update of the state does to each field: one lemma per field per update, so that no later proof
unfolds an update. -/

namespace Sys2Proof.Machine

@[simp] theorem raiseFault_ctrl (w : Word) (code : FaultCode) (cell : Word) (s : State) : (raiseFault w code cell s).ctrl = s.ctrl := rfl
@[simp] theorem raiseFault_cfgBg (w : Word) (code : FaultCode) (cell : Word) (s : State) : (raiseFault w code cell s).cfgBg = s.cfgBg := rfl
@[simp] theorem raiseFault_cfgFg (w : Word) (code : FaultCode) (cell : Word) (s : State) : (raiseFault w code cell s).cfgFg = s.cfgFg := rfl
@[simp] theorem raiseFault_cfgMc (w : Word) (code : FaultCode) (cell : Word) (s : State) : (raiseFault w code cell s).cfgMc = s.cfgMc := rfl
@[simp] theorem raiseFault_cfgHint (w : Word) (code : FaultCode) (cell : Word) (s : State) : (raiseFault w code cell s).cfgHint = s.cfgHint := rfl
@[simp] theorem raiseFault_cfgOffset (w : Word) (code : FaultCode) (cell : Word) (s : State) : (raiseFault w code cell s).cfgOffset = s.cfgOffset := rfl
@[simp] theorem raiseFault_cfgAttr (w : Word) (code : FaultCode) (cell : Word) (s : State) : (raiseFault w code cell s).cfgAttr = s.cfgAttr := rfl
@[simp] theorem raiseFault_cfgSprPad (w : Word) (code : FaultCode) (cell : Word) (s : State) : (raiseFault w code cell s).cfgSprPad = s.cfgSprPad := rfl
@[simp] theorem raiseFault_rasterDim (w : Word) (code : FaultCode) (cell : Word) (s : State) : (raiseFault w code cell s).rasterDim = s.rasterDim := rfl
@[simp] theorem raiseFault_rasterFmt (w : Word) (code : FaultCode) (cell : Word) (s : State) : (raiseFault w code cell s).rasterFmt = s.rasterFmt := rfl
@[simp] theorem raiseFault_status (w : Word) (code : FaultCode) (cell : Word) (s : State) : (raiseFault w code cell s).status = faultFlags s.status code := rfl
@[simp] theorem raiseFault_result (w : Word) (code : FaultCode) (cell : Word) (s : State) : (raiseFault w code cell s).result = s.result := rfl
@[simp] theorem raiseFault_roles (w : Word) (code : FaultCode) (cell : Word) (s : State) : (raiseFault w code cell s).roles = s.roles := rfl
@[simp] theorem raiseFault_errCmd (w : Word) (code : FaultCode) (cell : Word) (s : State) : (raiseFault w code cell s).errCmd = w := rfl
@[simp] theorem raiseFault_errCell (w : Word) (code : FaultCode) (cell : Word) (s : State) : (raiseFault w code cell s).errCell = cell := rfl
@[simp] theorem raiseFault_dict (w : Word) (code : FaultCode) (cell : Word) (s : State) : (raiseFault w code cell s).dict = s.dict := rfl
@[simp] theorem raiseFault_emptyRec (w : Word) (code : FaultCode) (cell : Word) (s : State) : (raiseFault w code cell s).emptyRec = s.emptyRec := rfl
@[simp] theorem raiseFault_cells (w : Word) (code : FaultCode) (cell : Word) (s : State) : (raiseFault w code cell s).cells = s.cells := rfl
@[simp] theorem raiseFault_buf (w : Word) (code : FaultCode) (cell : Word) (s : State) : (raiseFault w code cell s).buf = s.buf := rfl
@[simp] theorem raiseFault_dictCap (w : Word) (code : FaultCode) (cell : Word) (s : State) : (raiseFault w code cell s).dictCap = s.dictCap := rfl
@[simp] theorem raiseFault_mapCap (w : Word) (code : FaultCode) (cell : Word) (s : State) : (raiseFault w code cell s).mapCap = s.mapCap := rfl
@[simp] theorem raiseFault_raster (w : Word) (code : FaultCode) (cell : Word) (s : State) : (raiseFault w code cell s).raster = s.raster := rfl
@[simp] theorem raiseFault_queue (w : Word) (code : FaultCode) (cell : Word) (s : State) : (raiseFault w code cell s).queue = s.queue := rfl
@[simp] theorem raiseFault_busData (w : Word) (code : FaultCode) (cell : Word) (s : State) : (raiseFault w code cell s).busData = s.busData := rfl

@[simp] theorem leaveFault_ctrl (s : State) : (leaveFault s).ctrl = s.ctrl := rfl
@[simp] theorem leaveFault_cfgBg (s : State) : (leaveFault s).cfgBg = s.cfgBg := rfl
@[simp] theorem leaveFault_cfgFg (s : State) : (leaveFault s).cfgFg = s.cfgFg := rfl
@[simp] theorem leaveFault_cfgMc (s : State) : (leaveFault s).cfgMc = s.cfgMc := rfl
@[simp] theorem leaveFault_cfgHint (s : State) : (leaveFault s).cfgHint = s.cfgHint := rfl
@[simp] theorem leaveFault_cfgOffset (s : State) : (leaveFault s).cfgOffset = s.cfgOffset := rfl
@[simp] theorem leaveFault_cfgAttr (s : State) : (leaveFault s).cfgAttr = s.cfgAttr := rfl
@[simp] theorem leaveFault_cfgSprPad (s : State) : (leaveFault s).cfgSprPad = s.cfgSprPad := rfl
@[simp] theorem leaveFault_rasterDim (s : State) : (leaveFault s).rasterDim = s.rasterDim := rfl
@[simp] theorem leaveFault_rasterFmt (s : State) : (leaveFault s).rasterFmt = s.rasterFmt := rfl
@[simp] theorem leaveFault_status (s : State) : (leaveFault s).status = faultFreeFlags s.status := rfl
@[simp] theorem leaveFault_result (s : State) : (leaveFault s).result = s.result := rfl
@[simp] theorem leaveFault_roles (s : State) : (leaveFault s).roles = s.roles := rfl
@[simp] theorem leaveFault_errCmd (s : State) : (leaveFault s).errCmd = 0#32 := rfl
@[simp] theorem leaveFault_errCell (s : State) : (leaveFault s).errCell = noCell := rfl
@[simp] theorem leaveFault_dict (s : State) : (leaveFault s).dict = s.dict := rfl
@[simp] theorem leaveFault_emptyRec (s : State) : (leaveFault s).emptyRec = s.emptyRec := rfl
@[simp] theorem leaveFault_cells (s : State) : (leaveFault s).cells = s.cells := rfl
@[simp] theorem leaveFault_buf (s : State) : (leaveFault s).buf = s.buf := rfl
@[simp] theorem leaveFault_dictCap (s : State) : (leaveFault s).dictCap = s.dictCap := rfl
@[simp] theorem leaveFault_mapCap (s : State) : (leaveFault s).mapCap = s.mapCap := rfl
@[simp] theorem leaveFault_raster (s : State) : (leaveFault s).raster = s.raster := rfl
@[simp] theorem leaveFault_queue (s : State) : (leaveFault s).queue = s.queue := rfl
@[simp] theorem leaveFault_busData (s : State) : (leaveFault s).busData = s.busData := rfl

@[simp] theorem ignoreCommand_ctrl (s : State) : (ignoreCommand s).ctrl = s.ctrl := rfl
@[simp] theorem ignoreCommand_cfgBg (s : State) : (ignoreCommand s).cfgBg = s.cfgBg := rfl
@[simp] theorem ignoreCommand_cfgFg (s : State) : (ignoreCommand s).cfgFg = s.cfgFg := rfl
@[simp] theorem ignoreCommand_cfgMc (s : State) : (ignoreCommand s).cfgMc = s.cfgMc := rfl
@[simp] theorem ignoreCommand_cfgHint (s : State) : (ignoreCommand s).cfgHint = s.cfgHint := rfl
@[simp] theorem ignoreCommand_cfgOffset (s : State) : (ignoreCommand s).cfgOffset = s.cfgOffset := rfl
@[simp] theorem ignoreCommand_cfgAttr (s : State) : (ignoreCommand s).cfgAttr = s.cfgAttr := rfl
@[simp] theorem ignoreCommand_cfgSprPad (s : State) : (ignoreCommand s).cfgSprPad = s.cfgSprPad := rfl
@[simp] theorem ignoreCommand_rasterDim (s : State) : (ignoreCommand s).rasterDim = s.rasterDim := rfl
@[simp] theorem ignoreCommand_rasterFmt (s : State) : (ignoreCommand s).rasterFmt = s.rasterFmt := rfl
@[simp] theorem ignoreCommand_status (s : State) : (ignoreCommand s).status = { s.status with ign := true } := rfl
@[simp] theorem ignoreCommand_result (s : State) : (ignoreCommand s).result = s.result := rfl
@[simp] theorem ignoreCommand_roles (s : State) : (ignoreCommand s).roles = s.roles := rfl
@[simp] theorem ignoreCommand_errCmd (s : State) : (ignoreCommand s).errCmd = s.errCmd := rfl
@[simp] theorem ignoreCommand_errCell (s : State) : (ignoreCommand s).errCell = s.errCell := rfl
@[simp] theorem ignoreCommand_dict (s : State) : (ignoreCommand s).dict = s.dict := rfl
@[simp] theorem ignoreCommand_emptyRec (s : State) : (ignoreCommand s).emptyRec = s.emptyRec := rfl
@[simp] theorem ignoreCommand_cells (s : State) : (ignoreCommand s).cells = s.cells := rfl
@[simp] theorem ignoreCommand_buf (s : State) : (ignoreCommand s).buf = s.buf := rfl
@[simp] theorem ignoreCommand_dictCap (s : State) : (ignoreCommand s).dictCap = s.dictCap := rfl
@[simp] theorem ignoreCommand_mapCap (s : State) : (ignoreCommand s).mapCap = s.mapCap := rfl
@[simp] theorem ignoreCommand_raster (s : State) : (ignoreCommand s).raster = s.raster := rfl
@[simp] theorem ignoreCommand_queue (s : State) : (ignoreCommand s).queue = s.queue := rfl
@[simp] theorem ignoreCommand_busData (s : State) : (ignoreCommand s).busData = s.busData := rfl

@[simp] theorem setResult_ctrl (v : Word) (s : State) : (setResult v s).ctrl = s.ctrl := rfl
@[simp] theorem setResult_cfgBg (v : Word) (s : State) : (setResult v s).cfgBg = s.cfgBg := rfl
@[simp] theorem setResult_cfgFg (v : Word) (s : State) : (setResult v s).cfgFg = s.cfgFg := rfl
@[simp] theorem setResult_cfgMc (v : Word) (s : State) : (setResult v s).cfgMc = s.cfgMc := rfl
@[simp] theorem setResult_cfgHint (v : Word) (s : State) : (setResult v s).cfgHint = s.cfgHint := rfl
@[simp] theorem setResult_cfgOffset (v : Word) (s : State) : (setResult v s).cfgOffset = s.cfgOffset := rfl
@[simp] theorem setResult_cfgAttr (v : Word) (s : State) : (setResult v s).cfgAttr = s.cfgAttr := rfl
@[simp] theorem setResult_cfgSprPad (v : Word) (s : State) : (setResult v s).cfgSprPad = s.cfgSprPad := rfl
@[simp] theorem setResult_rasterDim (v : Word) (s : State) : (setResult v s).rasterDim = s.rasterDim := rfl
@[simp] theorem setResult_rasterFmt (v : Word) (s : State) : (setResult v s).rasterFmt = s.rasterFmt := rfl
@[simp] theorem setResult_status (v : Word) (s : State) : (setResult v s).status = s.status := rfl
@[simp] theorem setResult_result (v : Word) (s : State) : (setResult v s).result = v := rfl
@[simp] theorem setResult_roles (v : Word) (s : State) : (setResult v s).roles = s.roles := rfl
@[simp] theorem setResult_errCmd (v : Word) (s : State) : (setResult v s).errCmd = s.errCmd := rfl
@[simp] theorem setResult_errCell (v : Word) (s : State) : (setResult v s).errCell = s.errCell := rfl
@[simp] theorem setResult_dict (v : Word) (s : State) : (setResult v s).dict = s.dict := rfl
@[simp] theorem setResult_emptyRec (v : Word) (s : State) : (setResult v s).emptyRec = s.emptyRec := rfl
@[simp] theorem setResult_cells (v : Word) (s : State) : (setResult v s).cells = s.cells := rfl
@[simp] theorem setResult_buf (v : Word) (s : State) : (setResult v s).buf = s.buf := rfl
@[simp] theorem setResult_dictCap (v : Word) (s : State) : (setResult v s).dictCap = s.dictCap := rfl
@[simp] theorem setResult_mapCap (v : Word) (s : State) : (setResult v s).mapCap = s.mapCap := rfl
@[simp] theorem setResult_raster (v : Word) (s : State) : (setResult v s).raster = s.raster := rfl
@[simp] theorem setResult_queue (v : Word) (s : State) : (setResult v s).queue = s.queue := rfl
@[simp] theorem setResult_busData (v : Word) (s : State) : (setResult v s).busData = s.busData := rfl

@[simp] theorem dataClear_ctrl (s : State) : (dataClear s).ctrl = s.ctrl := rfl
@[simp] theorem dataClear_cfgBg (s : State) : (dataClear s).cfgBg = s.cfgBg := rfl
@[simp] theorem dataClear_cfgFg (s : State) : (dataClear s).cfgFg = s.cfgFg := rfl
@[simp] theorem dataClear_cfgMc (s : State) : (dataClear s).cfgMc = s.cfgMc := rfl
@[simp] theorem dataClear_cfgHint (s : State) : (dataClear s).cfgHint = s.cfgHint := rfl
@[simp] theorem dataClear_cfgOffset (s : State) : (dataClear s).cfgOffset = s.cfgOffset := rfl
@[simp] theorem dataClear_cfgAttr (s : State) : (dataClear s).cfgAttr = s.cfgAttr := rfl
@[simp] theorem dataClear_cfgSprPad (s : State) : (dataClear s).cfgSprPad = s.cfgSprPad := rfl
@[simp] theorem dataClear_rasterDim (s : State) : (dataClear s).rasterDim = s.rasterDim := rfl
@[simp] theorem dataClear_rasterFmt (s : State) : (dataClear s).rasterFmt = s.rasterFmt := rfl
@[simp] theorem dataClear_status (s : State) : (dataClear s).status = dataClearFlags s.status := rfl
@[simp] theorem dataClear_result (s : State) : (dataClear s).result = s.result := rfl
@[simp] theorem dataClear_roles (s : State) : (dataClear s).roles = s.roles := rfl
@[simp] theorem dataClear_errCmd (s : State) : (dataClear s).errCmd = s.errCmd := rfl
@[simp] theorem dataClear_errCell (s : State) : (dataClear s).errCell = s.errCell := rfl
@[simp] theorem dataClear_dict (s : State) : (dataClear s).dict = [] := rfl
@[simp] theorem dataClear_emptyRec (s : State) : (dataClear s).emptyRec = none := rfl
@[simp] theorem dataClear_cells (s : State) : (dataClear s).cells = [] := rfl
@[simp] theorem dataClear_buf (s : State) : (dataClear s).buf = s.buf := rfl
@[simp] theorem dataClear_dictCap (s : State) : (dataClear s).dictCap = s.dictCap := rfl
@[simp] theorem dataClear_mapCap (s : State) : (dataClear s).mapCap = s.mapCap := rfl
@[simp] theorem dataClear_raster (s : State) : (dataClear s).raster = s.raster := rfl
@[simp] theorem dataClear_queue (s : State) : (dataClear s).queue = s.queue := rfl
@[simp] theorem dataClear_busData (s : State) : (dataClear s).busData = s.busData := rfl

@[simp] theorem setNewEntry_ctrl (v : Bool) (s : State) : (setNewEntry v s).ctrl = s.ctrl := rfl
@[simp] theorem setNewEntry_cfgBg (v : Bool) (s : State) : (setNewEntry v s).cfgBg = s.cfgBg := rfl
@[simp] theorem setNewEntry_cfgFg (v : Bool) (s : State) : (setNewEntry v s).cfgFg = s.cfgFg := rfl
@[simp] theorem setNewEntry_cfgMc (v : Bool) (s : State) : (setNewEntry v s).cfgMc = s.cfgMc := rfl
@[simp] theorem setNewEntry_cfgHint (v : Bool) (s : State) : (setNewEntry v s).cfgHint = s.cfgHint := rfl
@[simp] theorem setNewEntry_cfgOffset (v : Bool) (s : State) : (setNewEntry v s).cfgOffset = s.cfgOffset := rfl
@[simp] theorem setNewEntry_cfgAttr (v : Bool) (s : State) : (setNewEntry v s).cfgAttr = s.cfgAttr := rfl
@[simp] theorem setNewEntry_cfgSprPad (v : Bool) (s : State) : (setNewEntry v s).cfgSprPad = s.cfgSprPad := rfl
@[simp] theorem setNewEntry_rasterDim (v : Bool) (s : State) : (setNewEntry v s).rasterDim = s.rasterDim := rfl
@[simp] theorem setNewEntry_rasterFmt (v : Bool) (s : State) : (setNewEntry v s).rasterFmt = s.rasterFmt := rfl
@[simp] theorem setNewEntry_status (v : Bool) (s : State) : (setNewEntry v s).status = { s.status with newEntry := v } := rfl
@[simp] theorem setNewEntry_result (v : Bool) (s : State) : (setNewEntry v s).result = s.result := rfl
@[simp] theorem setNewEntry_roles (v : Bool) (s : State) : (setNewEntry v s).roles = s.roles := rfl
@[simp] theorem setNewEntry_errCmd (v : Bool) (s : State) : (setNewEntry v s).errCmd = s.errCmd := rfl
@[simp] theorem setNewEntry_errCell (v : Bool) (s : State) : (setNewEntry v s).errCell = s.errCell := rfl
@[simp] theorem setNewEntry_dict (v : Bool) (s : State) : (setNewEntry v s).dict = s.dict := rfl
@[simp] theorem setNewEntry_emptyRec (v : Bool) (s : State) : (setNewEntry v s).emptyRec = s.emptyRec := rfl
@[simp] theorem setNewEntry_cells (v : Bool) (s : State) : (setNewEntry v s).cells = s.cells := rfl
@[simp] theorem setNewEntry_buf (v : Bool) (s : State) : (setNewEntry v s).buf = s.buf := rfl
@[simp] theorem setNewEntry_dictCap (v : Bool) (s : State) : (setNewEntry v s).dictCap = s.dictCap := rfl
@[simp] theorem setNewEntry_mapCap (v : Bool) (s : State) : (setNewEntry v s).mapCap = s.mapCap := rfl
@[simp] theorem setNewEntry_raster (v : Bool) (s : State) : (setNewEntry v s).raster = s.raster := rfl
@[simp] theorem setNewEntry_queue (v : Bool) (s : State) : (setNewEntry v s).queue = s.queue := rfl
@[simp] theorem setNewEntry_busData (v : Bool) (s : State) : (setNewEntry v s).busData = s.busData := rfl

@[simp] theorem appendBlock_ctrl (b : Block) (s : State) : (appendBlock b s).ctrl = s.ctrl := rfl
@[simp] theorem appendBlock_cfgBg (b : Block) (s : State) : (appendBlock b s).cfgBg = s.cfgBg := rfl
@[simp] theorem appendBlock_cfgFg (b : Block) (s : State) : (appendBlock b s).cfgFg = s.cfgFg := rfl
@[simp] theorem appendBlock_cfgMc (b : Block) (s : State) : (appendBlock b s).cfgMc = s.cfgMc := rfl
@[simp] theorem appendBlock_cfgHint (b : Block) (s : State) : (appendBlock b s).cfgHint = s.cfgHint := rfl
@[simp] theorem appendBlock_cfgOffset (b : Block) (s : State) : (appendBlock b s).cfgOffset = s.cfgOffset := rfl
@[simp] theorem appendBlock_cfgAttr (b : Block) (s : State) : (appendBlock b s).cfgAttr = s.cfgAttr := rfl
@[simp] theorem appendBlock_cfgSprPad (b : Block) (s : State) : (appendBlock b s).cfgSprPad = s.cfgSprPad := rfl
@[simp] theorem appendBlock_rasterDim (b : Block) (s : State) : (appendBlock b s).rasterDim = s.rasterDim := rfl
@[simp] theorem appendBlock_rasterFmt (b : Block) (s : State) : (appendBlock b s).rasterFmt = s.rasterFmt := rfl
@[simp] theorem appendBlock_status (b : Block) (s : State) : (appendBlock b s).status = { s.status with newEntry := true } := rfl
@[simp] theorem appendBlock_result (b : Block) (s : State) : (appendBlock b s).result = s.result := rfl
@[simp] theorem appendBlock_roles (b : Block) (s : State) : (appendBlock b s).roles = s.roles := rfl
@[simp] theorem appendBlock_errCmd (b : Block) (s : State) : (appendBlock b s).errCmd = s.errCmd := rfl
@[simp] theorem appendBlock_errCell (b : Block) (s : State) : (appendBlock b s).errCell = s.errCell := rfl
@[simp] theorem appendBlock_dict (b : Block) (s : State) : (appendBlock b s).dict = s.dict ++ [b] := rfl
@[simp] theorem appendBlock_emptyRec (b : Block) (s : State) : (appendBlock b s).emptyRec = if b = zeroBlock ∧ s.emptyRec = none then some (BitVec.ofNat 16 s.dict.length) else s.emptyRec := rfl
@[simp] theorem appendBlock_cells (b : Block) (s : State) : (appendBlock b s).cells = s.cells := rfl
@[simp] theorem appendBlock_buf (b : Block) (s : State) : (appendBlock b s).buf = s.buf := rfl
@[simp] theorem appendBlock_dictCap (b : Block) (s : State) : (appendBlock b s).dictCap = s.dictCap := rfl
@[simp] theorem appendBlock_mapCap (b : Block) (s : State) : (appendBlock b s).mapCap = s.mapCap := rfl
@[simp] theorem appendBlock_raster (b : Block) (s : State) : (appendBlock b s).raster = s.raster := rfl
@[simp] theorem appendBlock_queue (b : Block) (s : State) : (appendBlock b s).queue = s.queue := rfl
@[simp] theorem appendBlock_busData (b : Block) (s : State) : (appendBlock b s).busData = s.busData := rfl

@[simp] theorem moveEmptyToFront_ctrl (e : Index) (s : State) : (moveEmptyToFront e s).ctrl = s.ctrl := rfl
@[simp] theorem moveEmptyToFront_cfgBg (e : Index) (s : State) : (moveEmptyToFront e s).cfgBg = s.cfgBg := rfl
@[simp] theorem moveEmptyToFront_cfgFg (e : Index) (s : State) : (moveEmptyToFront e s).cfgFg = s.cfgFg := rfl
@[simp] theorem moveEmptyToFront_cfgMc (e : Index) (s : State) : (moveEmptyToFront e s).cfgMc = s.cfgMc := rfl
@[simp] theorem moveEmptyToFront_cfgHint (e : Index) (s : State) : (moveEmptyToFront e s).cfgHint = s.cfgHint := rfl
@[simp] theorem moveEmptyToFront_cfgOffset (e : Index) (s : State) : (moveEmptyToFront e s).cfgOffset = s.cfgOffset := rfl
@[simp] theorem moveEmptyToFront_cfgAttr (e : Index) (s : State) : (moveEmptyToFront e s).cfgAttr = s.cfgAttr := rfl
@[simp] theorem moveEmptyToFront_cfgSprPad (e : Index) (s : State) : (moveEmptyToFront e s).cfgSprPad = s.cfgSprPad := rfl
@[simp] theorem moveEmptyToFront_rasterDim (e : Index) (s : State) : (moveEmptyToFront e s).rasterDim = s.rasterDim := rfl
@[simp] theorem moveEmptyToFront_rasterFmt (e : Index) (s : State) : (moveEmptyToFront e s).rasterFmt = s.rasterFmt := rfl
@[simp] theorem moveEmptyToFront_status (e : Index) (s : State) : (moveEmptyToFront e s).status = s.status := rfl
@[simp] theorem moveEmptyToFront_result (e : Index) (s : State) : (moveEmptyToFront e s).result = s.result := rfl
@[simp] theorem moveEmptyToFront_roles (e : Index) (s : State) : (moveEmptyToFront e s).roles = s.roles := rfl
@[simp] theorem moveEmptyToFront_errCmd (e : Index) (s : State) : (moveEmptyToFront e s).errCmd = s.errCmd := rfl
@[simp] theorem moveEmptyToFront_errCell (e : Index) (s : State) : (moveEmptyToFront e s).errCell = s.errCell := rfl
@[simp] theorem moveEmptyToFront_dict (e : Index) (s : State) : (moveEmptyToFront e s).dict = swapEntries s.dict e.toNat := rfl
@[simp] theorem moveEmptyToFront_emptyRec (e : Index) (s : State) : (moveEmptyToFront e s).emptyRec = some 0#16 := rfl
@[simp] theorem moveEmptyToFront_cells (e : Index) (s : State) : (moveEmptyToFront e s).cells = s.cells.map fun c => (c.1, { c.2 with idx := relabel e c.2.idx }) := rfl
@[simp] theorem moveEmptyToFront_buf (e : Index) (s : State) : (moveEmptyToFront e s).buf = s.buf := rfl
@[simp] theorem moveEmptyToFront_dictCap (e : Index) (s : State) : (moveEmptyToFront e s).dictCap = s.dictCap := rfl
@[simp] theorem moveEmptyToFront_mapCap (e : Index) (s : State) : (moveEmptyToFront e s).mapCap = s.mapCap := rfl
@[simp] theorem moveEmptyToFront_raster (e : Index) (s : State) : (moveEmptyToFront e s).raster = s.raster := rfl
@[simp] theorem moveEmptyToFront_queue (e : Index) (s : State) : (moveEmptyToFront e s).queue = s.queue := rfl
@[simp] theorem moveEmptyToFront_busData (e : Index) (s : State) : (moveEmptyToFront e s).busData = s.busData := rfl

@[simp] theorem encodeBlock_ctrl (x0 y0 : Nat) (ctx : Context) (width : PixelWidth) (s : State) : (encodeBlock x0 y0 ctx width s).ctrl = s.ctrl := rfl
@[simp] theorem encodeBlock_cfgBg (x0 y0 : Nat) (ctx : Context) (width : PixelWidth) (s : State) : (encodeBlock x0 y0 ctx width s).cfgBg = s.cfgBg := rfl
@[simp] theorem encodeBlock_cfgFg (x0 y0 : Nat) (ctx : Context) (width : PixelWidth) (s : State) : (encodeBlock x0 y0 ctx width s).cfgFg = s.cfgFg := rfl
@[simp] theorem encodeBlock_cfgMc (x0 y0 : Nat) (ctx : Context) (width : PixelWidth) (s : State) : (encodeBlock x0 y0 ctx width s).cfgMc = s.cfgMc := rfl
@[simp] theorem encodeBlock_cfgHint (x0 y0 : Nat) (ctx : Context) (width : PixelWidth) (s : State) : (encodeBlock x0 y0 ctx width s).cfgHint = s.cfgHint := rfl
@[simp] theorem encodeBlock_cfgOffset (x0 y0 : Nat) (ctx : Context) (width : PixelWidth) (s : State) : (encodeBlock x0 y0 ctx width s).cfgOffset = s.cfgOffset := rfl
@[simp] theorem encodeBlock_cfgAttr (x0 y0 : Nat) (ctx : Context) (width : PixelWidth) (s : State) : (encodeBlock x0 y0 ctx width s).cfgAttr = s.cfgAttr := rfl
@[simp] theorem encodeBlock_cfgSprPad (x0 y0 : Nat) (ctx : Context) (width : PixelWidth) (s : State) : (encodeBlock x0 y0 ctx width s).cfgSprPad = s.cfgSprPad := rfl
@[simp] theorem encodeBlock_rasterDim (x0 y0 : Nat) (ctx : Context) (width : PixelWidth) (s : State) : (encodeBlock x0 y0 ctx width s).rasterDim = s.rasterDim := rfl
@[simp] theorem encodeBlock_rasterFmt (x0 y0 : Nat) (ctx : Context) (width : PixelWidth) (s : State) : (encodeBlock x0 y0 ctx width s).rasterFmt = s.rasterFmt := rfl
@[simp] theorem encodeBlock_status (x0 y0 : Nat) (ctx : Context) (width : PixelWidth) (s : State) : (encodeBlock x0 y0 ctx width s).status = blockFlags s.status ctx width (scanBlock s x0 y0 ctx width).2 := rfl
@[simp] theorem encodeBlock_result (x0 y0 : Nat) (ctx : Context) (width : PixelWidth) (s : State) : (encodeBlock x0 y0 ctx width s).result = s.result := rfl
@[simp] theorem encodeBlock_roles (x0 y0 : Nat) (ctx : Context) (width : PixelWidth) (s : State) : (encodeBlock x0 y0 ctx width s).roles = (scanBlock s x0 y0 ctx width).1 := rfl
@[simp] theorem encodeBlock_errCmd (x0 y0 : Nat) (ctx : Context) (width : PixelWidth) (s : State) : (encodeBlock x0 y0 ctx width s).errCmd = s.errCmd := rfl
@[simp] theorem encodeBlock_errCell (x0 y0 : Nat) (ctx : Context) (width : PixelWidth) (s : State) : (encodeBlock x0 y0 ctx width s).errCell = s.errCell := rfl
@[simp] theorem encodeBlock_dict (x0 y0 : Nat) (ctx : Context) (width : PixelWidth) (s : State) : (encodeBlock x0 y0 ctx width s).dict = s.dict := rfl
@[simp] theorem encodeBlock_emptyRec (x0 y0 : Nat) (ctx : Context) (width : PixelWidth) (s : State) : (encodeBlock x0 y0 ctx width s).emptyRec = s.emptyRec := rfl
@[simp] theorem encodeBlock_cells (x0 y0 : Nat) (ctx : Context) (width : PixelWidth) (s : State) : (encodeBlock x0 y0 ctx width s).cells = s.cells := rfl
@[simp] theorem encodeBlock_buf (x0 y0 : Nat) (ctx : Context) (width : PixelWidth) (s : State) : (encodeBlock x0 y0 ctx width s).buf = (scanBlock s x0 y0 ctx width).2 := rfl
@[simp] theorem encodeBlock_dictCap (x0 y0 : Nat) (ctx : Context) (width : PixelWidth) (s : State) : (encodeBlock x0 y0 ctx width s).dictCap = s.dictCap := rfl
@[simp] theorem encodeBlock_mapCap (x0 y0 : Nat) (ctx : Context) (width : PixelWidth) (s : State) : (encodeBlock x0 y0 ctx width s).mapCap = s.mapCap := rfl
@[simp] theorem encodeBlock_raster (x0 y0 : Nat) (ctx : Context) (width : PixelWidth) (s : State) : (encodeBlock x0 y0 ctx width s).raster = s.raster := rfl
@[simp] theorem encodeBlock_queue (x0 y0 : Nat) (ctx : Context) (width : PixelWidth) (s : State) : (encodeBlock x0 y0 ctx width s).queue = s.queue := rfl
@[simp] theorem encodeBlock_busData (x0 y0 : Nat) (ctx : Context) (width : PixelWidth) (s : State) : (encodeBlock x0 y0 ctx width s).busData = s.busData := rfl

@[simp] theorem writeCell_ctrl (k : Nat) (c : MapCell) (s : State) : (writeCell k c s).ctrl = s.ctrl := rfl
@[simp] theorem writeCell_cfgBg (k : Nat) (c : MapCell) (s : State) : (writeCell k c s).cfgBg = s.cfgBg := rfl
@[simp] theorem writeCell_cfgFg (k : Nat) (c : MapCell) (s : State) : (writeCell k c s).cfgFg = s.cfgFg := rfl
@[simp] theorem writeCell_cfgMc (k : Nat) (c : MapCell) (s : State) : (writeCell k c s).cfgMc = s.cfgMc := rfl
@[simp] theorem writeCell_cfgHint (k : Nat) (c : MapCell) (s : State) : (writeCell k c s).cfgHint = s.cfgHint := rfl
@[simp] theorem writeCell_cfgOffset (k : Nat) (c : MapCell) (s : State) : (writeCell k c s).cfgOffset = s.cfgOffset := rfl
@[simp] theorem writeCell_cfgAttr (k : Nat) (c : MapCell) (s : State) : (writeCell k c s).cfgAttr = s.cfgAttr := rfl
@[simp] theorem writeCell_cfgSprPad (k : Nat) (c : MapCell) (s : State) : (writeCell k c s).cfgSprPad = s.cfgSprPad := rfl
@[simp] theorem writeCell_rasterDim (k : Nat) (c : MapCell) (s : State) : (writeCell k c s).rasterDim = s.rasterDim := rfl
@[simp] theorem writeCell_rasterFmt (k : Nat) (c : MapCell) (s : State) : (writeCell k c s).rasterFmt = s.rasterFmt := rfl
@[simp] theorem writeCell_status (k : Nat) (c : MapCell) (s : State) : (writeCell k c s).status = s.status := rfl
@[simp] theorem writeCell_result (k : Nat) (c : MapCell) (s : State) : (writeCell k c s).result = s.result := rfl
@[simp] theorem writeCell_roles (k : Nat) (c : MapCell) (s : State) : (writeCell k c s).roles = s.roles := rfl
@[simp] theorem writeCell_errCmd (k : Nat) (c : MapCell) (s : State) : (writeCell k c s).errCmd = s.errCmd := rfl
@[simp] theorem writeCell_errCell (k : Nat) (c : MapCell) (s : State) : (writeCell k c s).errCell = s.errCell := rfl
@[simp] theorem writeCell_dict (k : Nat) (c : MapCell) (s : State) : (writeCell k c s).dict = s.dict := rfl
@[simp] theorem writeCell_emptyRec (k : Nat) (c : MapCell) (s : State) : (writeCell k c s).emptyRec = s.emptyRec := rfl
@[simp] theorem writeCell_cells (k : Nat) (c : MapCell) (s : State) : (writeCell k c s).cells = sparseSet s.cells k c := rfl
@[simp] theorem writeCell_buf (k : Nat) (c : MapCell) (s : State) : (writeCell k c s).buf = s.buf := rfl
@[simp] theorem writeCell_dictCap (k : Nat) (c : MapCell) (s : State) : (writeCell k c s).dictCap = s.dictCap := rfl
@[simp] theorem writeCell_mapCap (k : Nat) (c : MapCell) (s : State) : (writeCell k c s).mapCap = s.mapCap := rfl
@[simp] theorem writeCell_raster (k : Nat) (c : MapCell) (s : State) : (writeCell k c s).raster = s.raster := rfl
@[simp] theorem writeCell_queue (k : Nat) (c : MapCell) (s : State) : (writeCell k c s).queue = s.queue := rfl
@[simp] theorem writeCell_busData (k : Nat) (c : MapCell) (s : State) : (writeCell k c s).busData = s.busData := rfl

@[simp] theorem testAddressSpace_ctrl (s : State) : (testAddressSpace s).ctrl = s.ctrl := rfl
@[simp] theorem testAddressSpace_cfgBg (s : State) : (testAddressSpace s).cfgBg = s.cfgBg := rfl
@[simp] theorem testAddressSpace_cfgFg (s : State) : (testAddressSpace s).cfgFg = s.cfgFg := rfl
@[simp] theorem testAddressSpace_cfgMc (s : State) : (testAddressSpace s).cfgMc = s.cfgMc := rfl
@[simp] theorem testAddressSpace_cfgHint (s : State) : (testAddressSpace s).cfgHint = s.cfgHint := rfl
@[simp] theorem testAddressSpace_cfgOffset (s : State) : (testAddressSpace s).cfgOffset = s.cfgOffset := rfl
@[simp] theorem testAddressSpace_cfgAttr (s : State) : (testAddressSpace s).cfgAttr = s.cfgAttr := rfl
@[simp] theorem testAddressSpace_cfgSprPad (s : State) : (testAddressSpace s).cfgSprPad = s.cfgSprPad := rfl
@[simp] theorem testAddressSpace_rasterDim (s : State) : (testAddressSpace s).rasterDim = s.rasterDim := rfl
@[simp] theorem testAddressSpace_rasterFmt (s : State) : (testAddressSpace s).rasterFmt = s.rasterFmt := rfl
@[simp] theorem testAddressSpace_status (s : State) : (testAddressSpace s).status = { s.status with asw := s.status.asw || exceedsAddressSpace (dictCount s + s.cfgOffset.toNat) } := rfl
@[simp] theorem testAddressSpace_result (s : State) : (testAddressSpace s).result = s.result := rfl
@[simp] theorem testAddressSpace_roles (s : State) : (testAddressSpace s).roles = s.roles := rfl
@[simp] theorem testAddressSpace_errCmd (s : State) : (testAddressSpace s).errCmd = s.errCmd := rfl
@[simp] theorem testAddressSpace_errCell (s : State) : (testAddressSpace s).errCell = s.errCell := rfl
@[simp] theorem testAddressSpace_dict (s : State) : (testAddressSpace s).dict = s.dict := rfl
@[simp] theorem testAddressSpace_emptyRec (s : State) : (testAddressSpace s).emptyRec = s.emptyRec := rfl
@[simp] theorem testAddressSpace_cells (s : State) : (testAddressSpace s).cells = s.cells := rfl
@[simp] theorem testAddressSpace_buf (s : State) : (testAddressSpace s).buf = s.buf := rfl
@[simp] theorem testAddressSpace_dictCap (s : State) : (testAddressSpace s).dictCap = s.dictCap := rfl
@[simp] theorem testAddressSpace_mapCap (s : State) : (testAddressSpace s).mapCap = s.mapCap := rfl
@[simp] theorem testAddressSpace_raster (s : State) : (testAddressSpace s).raster = s.raster := rfl
@[simp] theorem testAddressSpace_queue (s : State) : (testAddressSpace s).queue = s.queue := rfl
@[simp] theorem testAddressSpace_busData (s : State) : (testAddressSpace s).busData = s.busData := rfl

@[simp] theorem clearBody_ctrl (s : State) : (clearBody s).ctrl = s.ctrl := rfl
@[simp] theorem clearBody_cfgBg (s : State) : (clearBody s).cfgBg = s.cfgBg := rfl
@[simp] theorem clearBody_cfgFg (s : State) : (clearBody s).cfgFg = s.cfgFg := rfl
@[simp] theorem clearBody_cfgMc (s : State) : (clearBody s).cfgMc = s.cfgMc := rfl
@[simp] theorem clearBody_cfgHint (s : State) : (clearBody s).cfgHint = s.cfgHint := rfl
@[simp] theorem clearBody_cfgOffset (s : State) : (clearBody s).cfgOffset = s.cfgOffset := rfl
@[simp] theorem clearBody_cfgAttr (s : State) : (clearBody s).cfgAttr = s.cfgAttr := rfl
@[simp] theorem clearBody_cfgSprPad (s : State) : (clearBody s).cfgSprPad = s.cfgSprPad := rfl
@[simp] theorem clearBody_rasterDim (s : State) : (clearBody s).rasterDim = s.rasterDim := rfl
@[simp] theorem clearBody_rasterFmt (s : State) : (clearBody s).rasterFmt = s.rasterFmt := rfl
@[simp] theorem clearBody_status (s : State) : (clearBody s).status = faultFreeFlags (dataClearFlags s.status) := rfl
@[simp] theorem clearBody_result (s : State) : (clearBody s).result = 0#32 := rfl
@[simp] theorem clearBody_roles (s : State) : (clearBody s).roles = RoleFile.unbound := rfl
@[simp] theorem clearBody_errCmd (s : State) : (clearBody s).errCmd = 0#32 := rfl
@[simp] theorem clearBody_errCell (s : State) : (clearBody s).errCell = noCell := rfl
@[simp] theorem clearBody_dict (s : State) : (clearBody s).dict = [] := rfl
@[simp] theorem clearBody_emptyRec (s : State) : (clearBody s).emptyRec = none := rfl
@[simp] theorem clearBody_cells (s : State) : (clearBody s).cells = [] := rfl
@[simp] theorem clearBody_buf (s : State) : (clearBody s).buf = s.buf := rfl
@[simp] theorem clearBody_dictCap (s : State) : (clearBody s).dictCap = s.dictCap := rfl
@[simp] theorem clearBody_mapCap (s : State) : (clearBody s).mapCap = s.mapCap := rfl
@[simp] theorem clearBody_raster (s : State) : (clearBody s).raster = s.raster := rfl
@[simp] theorem clearBody_queue (s : State) : (clearBody s).queue = s.queue := rfl
@[simp] theorem clearBody_busData (s : State) : (clearBody s).busData = s.busData := rfl

@[simp] theorem busRead_ctrl (off : Byte) (s : State) : (busRead off s).ctrl = s.ctrl := rfl
@[simp] theorem busRead_cfgBg (off : Byte) (s : State) : (busRead off s).cfgBg = s.cfgBg := rfl
@[simp] theorem busRead_cfgFg (off : Byte) (s : State) : (busRead off s).cfgFg = s.cfgFg := rfl
@[simp] theorem busRead_cfgMc (off : Byte) (s : State) : (busRead off s).cfgMc = s.cfgMc := rfl
@[simp] theorem busRead_cfgHint (off : Byte) (s : State) : (busRead off s).cfgHint = s.cfgHint := rfl
@[simp] theorem busRead_cfgOffset (off : Byte) (s : State) : (busRead off s).cfgOffset = s.cfgOffset := rfl
@[simp] theorem busRead_cfgAttr (off : Byte) (s : State) : (busRead off s).cfgAttr = s.cfgAttr := rfl
@[simp] theorem busRead_cfgSprPad (off : Byte) (s : State) : (busRead off s).cfgSprPad = s.cfgSprPad := rfl
@[simp] theorem busRead_rasterDim (off : Byte) (s : State) : (busRead off s).rasterDim = s.rasterDim := rfl
@[simp] theorem busRead_rasterFmt (off : Byte) (s : State) : (busRead off s).rasterFmt = s.rasterFmt := rfl
@[simp] theorem busRead_status (off : Byte) (s : State) : (busRead off s).status = s.status := rfl
@[simp] theorem busRead_result (off : Byte) (s : State) : (busRead off s).result = s.result := rfl
@[simp] theorem busRead_roles (off : Byte) (s : State) : (busRead off s).roles = s.roles := rfl
@[simp] theorem busRead_errCmd (off : Byte) (s : State) : (busRead off s).errCmd = s.errCmd := rfl
@[simp] theorem busRead_errCell (off : Byte) (s : State) : (busRead off s).errCell = s.errCell := rfl
@[simp] theorem busRead_dict (off : Byte) (s : State) : (busRead off s).dict = s.dict := rfl
@[simp] theorem busRead_emptyRec (off : Byte) (s : State) : (busRead off s).emptyRec = s.emptyRec := rfl
@[simp] theorem busRead_cells (off : Byte) (s : State) : (busRead off s).cells = s.cells := rfl
@[simp] theorem busRead_buf (off : Byte) (s : State) : (busRead off s).buf = s.buf := rfl
@[simp] theorem busRead_dictCap (off : Byte) (s : State) : (busRead off s).dictCap = s.dictCap := rfl
@[simp] theorem busRead_mapCap (off : Byte) (s : State) : (busRead off s).mapCap = s.mapCap := rfl
@[simp] theorem busRead_raster (off : Byte) (s : State) : (busRead off s).raster = s.raster := rfl
@[simp] theorem busRead_queue (off : Byte) (s : State) : (busRead off s).queue = s.queue := rfl
@[simp] theorem busRead_busData (off : Byte) (s : State) : (busRead off s).busData = readReg (regOfOffset off) s := rfl

@[simp] theorem hardReset_ctrl (s : State) : (hardReset s).ctrl = State.reset.ctrl := rfl
@[simp] theorem hardReset_cfgBg (s : State) : (hardReset s).cfgBg = State.reset.cfgBg := rfl
@[simp] theorem hardReset_cfgFg (s : State) : (hardReset s).cfgFg = State.reset.cfgFg := rfl
@[simp] theorem hardReset_cfgMc (s : State) : (hardReset s).cfgMc = State.reset.cfgMc := rfl
@[simp] theorem hardReset_cfgHint (s : State) : (hardReset s).cfgHint = State.reset.cfgHint := rfl
@[simp] theorem hardReset_cfgOffset (s : State) : (hardReset s).cfgOffset = State.reset.cfgOffset := rfl
@[simp] theorem hardReset_cfgAttr (s : State) : (hardReset s).cfgAttr = State.reset.cfgAttr := rfl
@[simp] theorem hardReset_cfgSprPad (s : State) : (hardReset s).cfgSprPad = State.reset.cfgSprPad := rfl
@[simp] theorem hardReset_rasterDim (s : State) : (hardReset s).rasterDim = State.reset.rasterDim := rfl
@[simp] theorem hardReset_rasterFmt (s : State) : (hardReset s).rasterFmt = State.reset.rasterFmt := rfl
@[simp] theorem hardReset_status (s : State) : (hardReset s).status = State.reset.status := rfl
@[simp] theorem hardReset_result (s : State) : (hardReset s).result = State.reset.result := rfl
@[simp] theorem hardReset_roles (s : State) : (hardReset s).roles = State.reset.roles := rfl
@[simp] theorem hardReset_errCmd (s : State) : (hardReset s).errCmd = State.reset.errCmd := rfl
@[simp] theorem hardReset_errCell (s : State) : (hardReset s).errCell = State.reset.errCell := rfl
@[simp] theorem hardReset_dict (s : State) : (hardReset s).dict = State.reset.dict := rfl
@[simp] theorem hardReset_emptyRec (s : State) : (hardReset s).emptyRec = State.reset.emptyRec := rfl
@[simp] theorem hardReset_cells (s : State) : (hardReset s).cells = State.reset.cells := rfl
@[simp] theorem hardReset_buf (s : State) : (hardReset s).buf = State.reset.buf := rfl
@[simp] theorem hardReset_dictCap (s : State) : (hardReset s).dictCap = s.dictCap := rfl
@[simp] theorem hardReset_mapCap (s : State) : (hardReset s).mapCap = s.mapCap := rfl
@[simp] theorem hardReset_raster (s : State) : (hardReset s).raster = s.raster := rfl
@[simp] theorem hardReset_queue (s : State) : (hardReset s).queue = s.queue := rfl
@[simp] theorem hardReset_busData (s : State) : (hardReset s).busData = s.busData := rfl

@[simp] theorem promoteEmpty_ctrl (s : State) : (promoteEmpty s).ctrl = s.ctrl := by
  unfold promoteEmpty; split <;> rfl
@[simp] theorem promoteEmpty_cfgBg (s : State) : (promoteEmpty s).cfgBg = s.cfgBg := by
  unfold promoteEmpty; split <;> rfl
@[simp] theorem promoteEmpty_cfgFg (s : State) : (promoteEmpty s).cfgFg = s.cfgFg := by
  unfold promoteEmpty; split <;> rfl
@[simp] theorem promoteEmpty_cfgMc (s : State) : (promoteEmpty s).cfgMc = s.cfgMc := by
  unfold promoteEmpty; split <;> rfl
@[simp] theorem promoteEmpty_cfgHint (s : State) : (promoteEmpty s).cfgHint = s.cfgHint := by
  unfold promoteEmpty; split <;> rfl
@[simp] theorem promoteEmpty_cfgOffset (s : State) : (promoteEmpty s).cfgOffset = s.cfgOffset := by
  unfold promoteEmpty; split <;> rfl
@[simp] theorem promoteEmpty_cfgAttr (s : State) : (promoteEmpty s).cfgAttr = s.cfgAttr := by
  unfold promoteEmpty; split <;> rfl
@[simp] theorem promoteEmpty_cfgSprPad (s : State) : (promoteEmpty s).cfgSprPad = s.cfgSprPad := by
  unfold promoteEmpty; split <;> rfl
@[simp] theorem promoteEmpty_rasterDim (s : State) : (promoteEmpty s).rasterDim = s.rasterDim := by
  unfold promoteEmpty; split <;> rfl
@[simp] theorem promoteEmpty_rasterFmt (s : State) : (promoteEmpty s).rasterFmt = s.rasterFmt := by
  unfold promoteEmpty; split <;> rfl
@[simp] theorem promoteEmpty_status (s : State) : (promoteEmpty s).status = s.status := by
  unfold promoteEmpty; split <;> rfl
@[simp] theorem promoteEmpty_roles (s : State) : (promoteEmpty s).roles = s.roles := by
  unfold promoteEmpty; split <;> rfl
@[simp] theorem promoteEmpty_errCmd (s : State) : (promoteEmpty s).errCmd = s.errCmd := by
  unfold promoteEmpty; split <;> rfl
@[simp] theorem promoteEmpty_errCell (s : State) : (promoteEmpty s).errCell = s.errCell := by
  unfold promoteEmpty; split <;> rfl
@[simp] theorem promoteEmpty_buf (s : State) : (promoteEmpty s).buf = s.buf := by
  unfold promoteEmpty; split <;> rfl
@[simp] theorem promoteEmpty_dictCap (s : State) : (promoteEmpty s).dictCap = s.dictCap := by
  unfold promoteEmpty; split <;> rfl
@[simp] theorem promoteEmpty_mapCap (s : State) : (promoteEmpty s).mapCap = s.mapCap := by
  unfold promoteEmpty; split <;> rfl
@[simp] theorem promoteEmpty_raster (s : State) : (promoteEmpty s).raster = s.raster := by
  unfold promoteEmpty; split <;> rfl
@[simp] theorem promoteEmpty_queue (s : State) : (promoteEmpty s).queue = s.queue := by
  unfold promoteEmpty; split <;> rfl
@[simp] theorem promoteEmpty_busData (s : State) : (promoteEmpty s).busData = s.busData := by
  unfold promoteEmpty; split <;> rfl

@[simp] theorem writeReg_status (r : Reg) (v : Word) (s : State) : (writeReg r v s).status = s.status := by cases r <;> rfl
@[simp] theorem writeReg_result (r : Reg) (v : Word) (s : State) : (writeReg r v s).result = s.result := by cases r <;> rfl
@[simp] theorem writeReg_roles (r : Reg) (v : Word) (s : State) : (writeReg r v s).roles = s.roles := by cases r <;> rfl
@[simp] theorem writeReg_errCmd (r : Reg) (v : Word) (s : State) : (writeReg r v s).errCmd = s.errCmd := by cases r <;> rfl
@[simp] theorem writeReg_errCell (r : Reg) (v : Word) (s : State) : (writeReg r v s).errCell = s.errCell := by cases r <;> rfl
@[simp] theorem writeReg_dict (r : Reg) (v : Word) (s : State) : (writeReg r v s).dict = s.dict := by cases r <;> rfl
@[simp] theorem writeReg_emptyRec (r : Reg) (v : Word) (s : State) : (writeReg r v s).emptyRec = s.emptyRec := by cases r <;> rfl
@[simp] theorem writeReg_cells (r : Reg) (v : Word) (s : State) : (writeReg r v s).cells = s.cells := by cases r <;> rfl
@[simp] theorem writeReg_buf (r : Reg) (v : Word) (s : State) : (writeReg r v s).buf = s.buf := by cases r <;> rfl
@[simp] theorem writeReg_dictCap (r : Reg) (v : Word) (s : State) : (writeReg r v s).dictCap = s.dictCap := by cases r <;> rfl
@[simp] theorem writeReg_mapCap (r : Reg) (v : Word) (s : State) : (writeReg r v s).mapCap = s.mapCap := by cases r <;> rfl
@[simp] theorem writeReg_raster (r : Reg) (v : Word) (s : State) : (writeReg r v s).raster = s.raster := by cases r <;> rfl
@[simp] theorem writeReg_queue (r : Reg) (v : Word) (s : State) : (writeReg r v s).queue = s.queue := by cases r <;> rfl
@[simp] theorem writeReg_busData (r : Reg) (v : Word) (s : State) : (writeReg r v s).busData = s.busData := by cases r <;> rfl

@[simp] theorem faultFlags_fault (st : Status) (code : FaultCode) : (faultFlags st code).fault = true := rfl
@[simp] theorem faultFlags_err (st : Status) (code : FaultCode) : (faultFlags st code).err = faultNumber code := rfl
@[simp] theorem dataClearFlags_fault (st : Status) : (dataClearFlags st).fault = st.fault := rfl
@[simp] theorem dataClearFlags_err (st : Status) : (dataClearFlags st).err = st.err := rfl
@[simp] theorem dataClearFlags_ign (st : Status) : (dataClearFlags st).ign = st.ign := rfl
@[simp] theorem blockFlags_fault (st : Status) (ctx : Context) (w : PixelWidth) (b : Vector Byte 64) :
    (blockFlags st ctx w b).fault = st.fault := rfl
@[simp] theorem blockFlags_err (st : Status) (ctx : Context) (w : PixelWidth) (b : Vector Byte 64) :
    (blockFlags st ctx w b).err = st.err := rfl
@[simp] theorem blockFlags_ign (st : Status) (ctx : Context) (w : PixelWidth) (b : Vector Byte 64) :
    (blockFlags st ctx w b).ign = st.ign := rfl

end Sys2Proof.Machine
end

