-- ==== Sys2Proof/Laws/Ops.lean ====
section
/-! SUPPORT. For each shared operation, once, everything it can do. -/

namespace Sys2Proof.Machine

/-! ### Commands and faults -/

@[simp] theorem firstFailing_nil : firstFailing [] = none := rfl

theorem firstFailing_cons (c : Check) (cs : List Check) :
    firstFailing (c :: cs) = if c.fails then some c else firstFailing cs := rfl

/-- With no failing check the command's body decides. -/
theorem firstFailing_eq_none (cs : List Check) : firstFailing cs = none ↔ ∀ c ∈ cs, c.fails = false := by
  induction cs with
  | nil => simp
  | cons c cs ih =>
    rw [firstFailing_cons]
    cases hc : c.fails <;> simp [hc, ih]

theorem firstFailing_mem (cs : List Check) (c : Check) (h : firstFailing cs = some c) :
    c ∈ cs ∧ c.fails = true := by
  induction cs with
  | nil => simp at h
  | cons d cs ih =>
    rw [firstFailing_cons] at h
    split at h
    · cases h
      exact ⟨List.mem_cons_self, by assumption⟩
    · exact ⟨List.mem_cons_of_mem _ (ih h).1, (ih h).2⟩

/-- A command goes on: a check raises, or its body finishes or raises. -/
theorem runCommand_cases (w : Word) (cs : List Check) (s : State) (body : Attempt Unit) :
    (∃ c ∈ cs, c.fails = true ∧ runCommand w cs s body = .next (raiseFault w c.code c.cell s)) ∨
    ((∀ c ∈ cs, c.fails = false) ∧
      ((∃ u t, body = .done u t ∧ runCommand w cs s body = .next t) ∨
       (∃ code cell t, body = .raised code cell t ∧
          runCommand w cs s body = .next (raiseFault w code cell t)))) := by
  unfold runCommand
  cases h : firstFailing cs with
  | some c => exact .inl ⟨c, (firstFailing_mem cs c h).1, (firstFailing_mem cs c h).2, rfl⟩
  | none =>
    refine .inr ⟨(firstFailing_eq_none cs).1 h, ?_⟩
    cases body with
    | done u t => exact .inl ⟨u, t, rfl, rfl⟩
    | raised code cell t => exact .inr ⟨code, cell, t, rfl, rfl⟩

theorem runCommand_done (w : Word) (cs : List Check) (s t : State) (h : ∀ c ∈ cs, c.fails = false) :
    runCommand w cs s (.done () t) = .next t := by
  simp [runCommand, (firstFailing_eq_none cs).2 h]

theorem runCommand_raised (w : Word) (cs : List Check) (s t : State) (code : FaultCode) (cell : Word)
    (h : ∀ c ∈ cs, c.fails = false) :
    runCommand w cs s (.raised code cell t) = .next (raiseFault w code cell t) := by
  simp [runCommand, (firstFailing_eq_none cs).2 h]

/-- A command answers a next state, whatever its checks and its body. -/
theorem runCommand_next (w : Word) (cs : List Check) (s : State) (body : Attempt Unit) :
    ∃ t, runCommand w cs s body = .next t := by
  rcases runCommand_cases w cs s body with ⟨c, -, -, h⟩ | ⟨-, ⟨u, t, -, h⟩ | ⟨code, cell, t, -, h⟩⟩ <;> exact ⟨_, h⟩

/-! ### The dictionary -/

theorem findBlock_some (b : Block) (d : List Block) (i : Nat) (h : findBlock b d = some i) :
    d[i]? = some b ∧ ∀ j < i, d[j]? ≠ some b := by
  induction d generalizing i with
  | nil => simp [findBlock] at h
  | cons e d ih =>
    simp only [findBlock] at h
    split at h
    · cases h
      simp_all
    · rename_i he
      obtain ⟨j, hj, rfl⟩ := Option.map_eq_some_iff.1 h
      refine ⟨by simpa using (ih j hj).1, fun k hk => ?_⟩
      cases k with
      | zero => simpa using he
      | succ k => simpa using (ih j hj).2 k (by omega)

theorem findBlock_none (b : Block) (d : List Block) : findBlock b d = none ↔ b ∉ d := by
  induction d with
  | nil => simp [findBlock]
  | cons e d ih =>
    simp only [findBlock]
    split
    · simp_all
    · rename_i he
      simp [ih, Ne.symm he]

/-- A lookup finds the block, or appends it, or the dictionary is full. -/
theorem lookupOrInsert_cases (b : Block) (cell : Word) (s : State) :
    (∃ i, findBlock b s.dict = some i ∧
      lookupOrInsert b cell s = .done (BitVec.ofNat 16 i, false) (setNewEntry false s)) ∨
    (b ∉ s.dict ∧ s.dict.length = s.dictCap ∧ lookupOrInsert b cell s = .raised .capacity cell s) ∨
    (b ∉ s.dict ∧ s.dict.length ≠ s.dictCap ∧
      lookupOrInsert b cell s = .done (BitVec.ofNat 16 s.dict.length, true) (appendBlock b s)) := by
  unfold lookupOrInsert
  cases h : findBlock b s.dict with
  | some i => exact .inl ⟨i, rfl, rfl⟩
  | none =>
    have hb := (findBlock_none b s.dict).1 h
    by_cases hc : s.dict.length = s.dictCap
    · exact .inr (.inl ⟨hb, hc, by simp [hc]⟩)
    · exact .inr (.inr ⟨hb, hc, by simp [hc]⟩)

/-- A promotion swaps and relabels, or only writes `RESULT`. -/
theorem promoteEmpty_cases (s : State) :
    (∃ e, s.emptyRec = some e ∧ e ≠ 0#16 ∧
      promoteEmpty s = setResult (promoteResult (some e) true) (moveEmptyToFront e s)) ∨
    ((s.emptyRec = none ∨ s.emptyRec = some 0#16) ∧ promoteEmpty s = setResult (promoteResult s.emptyRec false) s) := by
  unfold promoteEmpty promotes
  cases h : s.emptyRec with
  | none => exact .inr ⟨.inl rfl, by simp⟩
  | some e =>
    by_cases he : e = 0#16
    · exact .inr ⟨.inr (by rw [he]), by simp [he]⟩
    · exact .inl ⟨e, rfl, he, by simp [bne_iff_ne.2 he]⟩

theorem swapEntries_length (d : List Block) (e : Nat) : (swapEntries d e).length = d.length := by
  unfold swapEntries
  split <;> simp

/-- Entries 0 and `e` have changed places, and every other entry stands. -/
theorem swapEntries_getElem? (d : List Block) (e : Nat) (he : e < d.length) (h0 : e ≠ 0) :
    (swapEntries d e)[0]? = d[e]? ∧ (swapEntries d e)[e]? = d[0]? ∧
      ∀ j, j ≠ 0 → j ≠ e → (swapEntries d e)[j]? = d[j]? := by
  have hd : 0 < d.length := by omega
  simp only [swapEntries, List.getElem?_eq_getElem hd, List.getElem?_eq_getElem he]
  exact ⟨by simp [hd, h0], by simp [he], fun j hj hje => by simp [Ne.symm hj, Ne.symm hje]⟩

@[simp] theorem dictCount_promoteEmpty (s : State) : dictCount (promoteEmpty s) = dictCount s := by
  unfold dictCount
  rcases promoteEmpty_cases s with ⟨e, -, -, h⟩ | ⟨-, h⟩ <;> simp [h, swapEntries_length]

/-! ### Roles -/

theorem roleGet_roleBind (f : RoleFile) (r q : RoleName) (p : Byte) :
    roleGet (roleBind f r p) q = if q = r then some p else roleGet f q := by
  cases r <;> cases q <;> rfl

/-- Resolving a pixel leaves the role file, or binds one unbound role to the pixel. -/
theorem resolvePixel_roles (fg : Option Byte) (p : Byte) (w : PixelWidth) (ctx : Context) (f : RoleFile) :
    (resolvePixel fg p w ctx f).2 = f ∨
      ∃ r, roleGet f r = none ∧ (resolvePixel fg p w ctx f).2 = roleBind f r p := by
  have H : ∀ w, (learnRole w ctx p f).2 = f ∨
      ∃ r, roleGet f r = none ∧ (learnRole w ctx p f).2 = roleBind f r p := by
    intro w
    unfold learnRole
    split
    · exact .inl rfl
    · split
      · rename_i e he
        exact .inr ⟨e.1, by simpa using List.find?_some he, rfl⟩
      · exact .inl rfl
  unfold resolvePixel
  split
  · exact .inl rfl
  · exact H _
  · exact H _

/-! ### The cell sequencer -/

/-- The state in which a cell of the map is built: its block is in the buffer. -/
theorem cellStep_cases (cx cy k : Nat) (s : State) :
    (∃ code cell t,
      lookupOrInsert (bufBlock (encodeCell cx cy s)) (BitVec.ofNat 32 k) (encodeCell cx cy s) = .raised code cell t ∧
      cellStep cx cy k s = .raised code cell t) ∨
    (∃ v t a,
      lookupOrInsert (bufBlock (encodeCell cx cy s)) (BitVec.ofNat 32 k) (encodeCell cx cy s) = .done v t ∧
      cellStep cx cy k s = .done v (writeCell k { idx := v.1, attr := a } t)) := by
  unfold cellStep
  cases h : lookupOrInsert (bufBlock (encodeCell cx cy s)) (BitVec.ofNat 32 k) (encodeCell cx cy s) with
  | done v t => exact .inr ⟨v, t, _, rfl, rfl⟩
  | raised code cell t => exact .inl ⟨code, cell, t, rfl, rfl⟩

@[simp] theorem buildCells_nil (s : State) : buildCells [] s = .done () s := rfl

theorem buildCells_cons (cx cy : Nat) (rest : List (Nat × Nat)) (s : State) :
    buildCells ((cx, cy) :: rest) s =
      match cellStep cx cy (cellIndex s cx cy) s with
      | .done _ t => buildCells rest t
      | .raised code cell t => .raised code cell t := rfl

theorem mem_cellsInRasterOrder (s : State) (cx cy : Nat) :
    (cx, cy) ∈ cellsInRasterOrder s ↔ cx < mapWidth s ∧ cy < mapHeight s := by
  simp [cellsInRasterOrder]
  tauto

/-! ### Results and commands -/

/-- The value of an insertion as a number. -/
theorem insertionResult_eq (i : Index) (isNew : Bool) :
    insertionResult i isNew = BitVec.ofNat 32 ((if isNew then 65536 else 0) + i.toNat) := by
  apply BitVec.eq_of_toNat_eq
  have := i.isLt
  unfold insertionResult
  rw [BitVec.toNat_setWidth, toNat_append_mul, BitVec.toNat_ofNat]
  cases isNew <;> simp

/-- The value of a promotion that moved an entry, and of one that did not. -/
theorem promoteResult_swapped (e : Index) : promoteResult (some e) true = BitVec.ofNat 32 (65536 + e.toNat) := by
  apply BitVec.eq_of_toNat_eq
  have := e.isLt
  unfold promoteResult
  rw [BitVec.toNat_setWidth, toNat_append_mul, BitVec.toNat_ofNat]
  simp only [Option.isNone_some, Option.getD_some]
  rw [show (BitVec.ofBool false ++ 0#14 ++ BitVec.ofBool true).toNat = 1 from by decide]
  omega

theorem promoteResult_kept : promoteResult none false = 0x80000000#32 ∧ promoteResult (some 0#16) false = 0#32 := by
  decide

/-- Every command answers a next state. -/
theorem exec_next (i : Instr) (s : State) : ∃ t, exec i s = .next t := by
  cases i <;>
    simp only [exec, execReadDict, execReadMap, execReadCmap, execReadBuf, runRead] <;> exact runCommand_next ..

/-! ### The step -/

/-- With nothing pending the unit is idle. -/
theorem step_idle (s : State) (h : s.queue = []) : step s = .next s := by
  simp [step, h]

theorem step_event (s : State) (e : HostEvent) (rest : List HostEvent) (h : s.queue = e :: rest) :
    step s = hostEvent e { s with queue := rest } := by
  simp [step, h]

/-- A write to any register but `CMD` writes that register's fields. -/
theorem busWrite_config (off : Byte) (v : Word) (s : State) (h : regOfOffset off ≠ .cmd) :
    busWrite off v s = .next (writeReg (regOfOffset off) v s) := by
  unfold busWrite
  cases hr : regOfOffset off <;> simp_all

theorem busWrite_cmd (off : Byte) (v : Word) (s : State) (h : regOfOffset off = .cmd) :
    busWrite off v s = issue v s := by
  simp [busWrite, h]

/-- What the dispatcher does with a word. -/
theorem issue_cases (w : Word) (s : State) :
    (s.status.fault = true ∧ w = 0#32 ∧ issue w s = exec .clear s) ∨
    (s.status.fault = true ∧ w ≠ 0#32 ∧ issue w s = .next (ignoreCommand s)) ∨
    (s.status.fault = false ∧ ∃ i, decode w = .legal i ∧ issue w s = exec i s) ∨
    (s.status.fault = false ∧ ∃ r, decode w = .illegal r ∧
      issue w s = .next (raiseFault w .illegalCommand noCell s)) := by
  unfold issue
  cases hf : s.status.fault with
  | true => by_cases hw : w = 0#32 <;> simp [hw]
  | false => cases hd : decode w <;> simp

/-- What a step that answers a next state did. -/
theorem step_next_cases (s t : State) (h : step s = .next t) :
    (s.queue = [] ∧ t = s) ∨
    ∃ e rest, s.queue = e :: rest ∧
      ((∃ off, e = .read .word off ∧ t = busRead off { s with queue := rest }) ∨
       (∃ off v, e = .write .word off v ∧ regOfOffset off ≠ .cmd ∧
          t = writeReg (regOfOffset off) v { s with queue := rest }) ∨
       (∃ off v, e = .write .word off v ∧ regOfOffset off = .cmd ∧ issue v { s with queue := rest } = .next t) ∨
       (∃ pixels, e = .connectRaster pixels ∧ (∀ c ∈ pixels, c.1 < Memory.size) ∧
          t = { s with queue := rest, raster := Memory.ofCells pixels }) ∨
       (e = .hardReset ∧ t = hardReset { s with queue := rest })) := by
  cases hq : s.queue with
  | nil =>
    rw [step_idle s hq] at h
    exact .inl ⟨rfl, by cases h; rfl⟩
  | cons e rest =>
    rw [step_event s e rest hq] at h
    refine .inr ⟨e, rest, rfl, ?_⟩
    cases e with
    | read size off =>
      simp only [hostEvent, checkedAccess] at h
      split at h
      · cases h
      · rename_i hsize
        split at h
        · cases h
        · cases h
          exact .inl ⟨off, by simp_all, rfl⟩
    | write size off v =>
      simp only [hostEvent, checkedAccess] at h
      split at h
      · cases h
      · rename_i hsize
        have hw : size = .word := by simpa using hsize
        split at h
        · cases h
        · by_cases hr : regOfOffset off = .cmd
          · rw [busWrite_cmd _ _ _ hr] at h
            exact .inr (.inr (.inl ⟨off, v, by rw [hw], hr, h⟩))
          · rw [busWrite_config _ _ _ hr] at h
            cases h
            exact .inr (.inl ⟨off, v, by rw [hw], hr, rfl⟩)
    | connectRaster pixels =>
      simp only [hostEvent, connectRaster] at h
      split at h
      · cases h
      · rename_i hp
        cases h
        refine .inr (.inr (.inr (.inl ⟨pixels, rfl, fun c hc => ?_, rfl⟩)))
        have := List.find?_eq_none.1 hp c hc
        simpa using this
    | hardReset =>
      cases h
      exact .inr (.inr (.inr (.inr ⟨rfl, rfl⟩)))

end Sys2Proof.Machine
end

