-- ==== Sys2Proof/Laws/Checks.lean ====
section
/-! SUPPORT. When each check of a command fails, in the registers' bits, and what the configured options are. -/

namespace Sys2Proof.Machine

theorem optionOf_none (r : BitVec 9) (h : r.getLsbD 8 = false) : optionOf r = none := by
  rw [optionOf, h]
  rfl

theorem optionOf_some (r : BitVec 9) (h : r.getLsbD 8 = true) : optionOf r = some (r.extractLsb' 0 8) := by
  rw [optionOf, h]
  rfl

theorem multicolorPair_none (s : State) (h : s.cfgMc.getLsbD 16 = false) : multicolorPair s = none := by
  rw [multicolorPair, h]
  rfl

theorem multicolorPair_some (s : State) (h : s.cfgMc.getLsbD 16 = true) :
    multicolorPair s = some (s.cfgMc.extractLsb' 0 8, s.cfgMc.extractLsb' 8 8) := by
  rw [multicolorPair, h]
  rfl

theorem foreground_isSome (s : State) : (foreground s).isSome = s.cfgFg.getLsbD 8 := by
  unfold foreground
  cases h : s.cfgFg.getLsbD 8
  · rw [optionOf_none _ h]; rfl
  · rw [optionOf_some _ h]; rfl

theorem multicolorPair_isSome (s : State) : (multicolorPair s).isSome = s.cfgMc.getLsbD 16 := by
  cases h : s.cfgMc.getLsbD 16
  · rw [multicolorPair_none s h]; rfl
  · rw [multicolorPair_some s h]; rfl

/-- The global mode from the bits of the registers (R111). -/
theorem effectiveMode_eq (s : State) :
    effectiveMode s =
      if s.cfgFg.getLsbD 8 = false ∧ (s.cfgMc.getLsbD 16 = true ∨ s.ctrl.getLsbD 0 = true) then .multicolor
      else .hires := by
  unfold effectiveMode ctrlMode
  rw [foreground_isSome, multicolorPair_isSome]
  cases s.cfgFg.getLsbD 8 <;> cases s.cfgMc.getLsbD 16 <;> cases s.ctrl.getLsbD 0 <;> rfl

theorem configCheck_fails (s : State) : (configCheck s).fails = (s.cfgFg.getLsbD 8 && s.cfgMc.getLsbD 16) := by
  unfold configCheck
  rw [foreground_isSome, multicolorPair_isSome]

theorem widthCheck_fails (s : State) (asks : Bool) : (widthCheck s asks).fails = (asks && s.cfgFg.getLsbD 8) := by
  unfold widthCheck
  rw [foreground_isSome]

theorem formatCheck_fails (s : State) : (formatCheck s).fails = true ↔ s.rasterFmt = 0#1 := by
  have key : ∀ r : BitVec 1, (!r.getLsbD 0) = true ↔ r = 0#1 := by decide
  exact key s.rasterFmt

theorem regionCheck_fails (s : State) (ctx : Context) (x y : Nat) :
    (regionCheck s ctx x y).fails = true ↔
      rasterWidth s < x + regionWidth ctx ∨ rasterHeight s < y + regionHeight ctx := by
  simp [regionCheck, regionOutside]

theorem cellCheck_fails (s : State) (cx cy : Nat) :
    (cellCheck s cx cy).fails = true ↔ mapWidth s ≤ cx ∨ mapHeight s ≤ cy := by
  simp [cellCheck]

theorem mapIndexCheck_fails (s : State) (k : Nat) : (mapIndexCheck s k).fails = true ↔ s.mapCap ≤ k := by
  simp [mapIndexCheck]

theorem mapSizeCheck_fails (s : State) :
    (mapSizeCheck s).fails = true ↔ s.mapCap < mapWidth s * mapHeight s := by
  simp [mapSizeCheck]

theorem sequenceCheck_fails (s : State) :
    (sequenceCheck s).fails = true ↔ s.status.blkV = false ∨ s.status.blkSpr = true := by
  simp [sequenceCheck]

theorem wselCheck_fails (w : WidthSel) : (wselCheck w).fails = true ↔ w = .reserved := by
  simp [wselCheck]

end Sys2Proof.Machine
end

