-- ==== Sys2Proof/Laws/Detect.lean ====
section
/-! SUPPORT. What the mode detector's scan answers, once for every list of pairs. -/

namespace Sys2Proof.Machine

/-- When a pixel of the scan rejects the block. -/
theorem noteForeground_none (bg : Byte) (fg : Option Byte) (p : Byte) :
    noteForeground bg fg p = none ↔ p ≠ bg ∧ ∃ f, fg = some f ∧ p ≠ f := by
  unfold noteForeground
  split
  · simp_all
  · cases fg <;> simp_all

/-- What the candidate is after a pixel that does not reject the block. -/
theorem noteForeground_some (bg : Byte) (fg g : Option Byte) (p : Byte) (h : noteForeground bg fg p = some g) :
    (g = if p = bg then fg else some p) ∧ (p = bg ∨ fg = none ∨ fg = some p) := by
  unfold noteForeground at h
  split at h
  · simp_all
  · cases fg <;> simp_all

/-- The pairs of a region. -/
theorem mem_regionPairs (s : State) (x0 y0 w h : Nat) (p : Byte × Byte) :
    p ∈ regionPairs s x0 y0 w h ↔
      ∃ i y, i < w / 2 ∧ y < h ∧
        p = (rasterRead s (x0 + 2 * i) (y0 + y), rasterRead s (x0 + 2 * i + 1) (y0 + y)) := by
  simp only [regionPairs, List.mem_flatMap, List.mem_range, List.mem_map]
  constructor
  · rintro ⟨y, hy, i, hi, rfl⟩
    exact ⟨i, y, hi, hy, rfl⟩
  · rintro ⟨i, y, hi, hy, rfl⟩
    exact ⟨y, hy, i, hi, rfl⟩

/-- The colours that the scan counts: the candidate and the pixels of the pairs, without the background. -/
def counted (bg : Byte) (fg : Option Byte) (ps : List (Byte × Byte)) (u : Byte) : Prop :=
  u ≠ bg ∧ (fg = some u ∨ ∃ p ∈ ps, p.1 = u ∨ p.2 = u)

/-- One pair of the scan adds its two pixels to the colours counted. -/
theorem counted_cons (bg p0 p1 : Byte) (fg g0 g1 : Option Byte) (ps : List (Byte × Byte))
    (h0 : g0 = if p0 = bg then fg else some p0) (c0 : p0 = bg ∨ fg = none ∨ fg = some p0)
    (h1 : g1 = if p1 = bg then g0 else some p1) (c1 : p1 = bg ∨ g0 = none ∨ g0 = some p1) (u : Byte) :
    counted bg fg ((p0, p1) :: ps) u ↔ counted bg g1 ps u := by
  have key : u ≠ bg → (g1 = some u ↔ fg = some u ∨ p0 = u ∨ p1 = u) := by grind
  constructor
  · rintro ⟨hu, h⟩
    refine ⟨hu, ?_⟩
    rw [key hu]
    rcases h with h | ⟨q, hq, h⟩
    · exact .inl (.inl h)
    · rcases List.mem_cons.1 hq with rfl | hq
      · exact .inl (.inr h)
      · exact .inr ⟨q, hq, h⟩
  · rintro ⟨hu, h⟩
    refine ⟨hu, ?_⟩
    rw [key hu] at h
    rcases h with (h | h) | ⟨q, hq, h⟩
    · exact .inl h
    · exact .inr ⟨_, List.mem_cons_self, h⟩
    · exact .inr ⟨q, List.mem_cons_of_mem _ hq, h⟩

/-- The scan answers true exactly when some pair differs and no two colours besides the background are counted. -/
theorem scanPairs_iff (bg : Byte) (ps : List (Byte × Byte)) (fg : Option Byte) (differ : Bool)
    (hfg : ∀ f, fg = some f → f ≠ bg) :
    scanPairs bg ps fg differ = true ↔
      (differ = true ∨ ∃ p ∈ ps, p.1 ≠ p.2) ∧ ∀ u v, counted bg fg ps u → counted bg fg ps v → u = v := by
  induction ps generalizing fg differ with
  | nil =>
    simp only [scanPairs, List.not_mem_nil, false_and, exists_false, or_false, iff_self_and, counted]
    rintro - u v ⟨-, hu⟩ ⟨-, hv⟩
    rw [hu] at hv
    exact Option.some.inj hv
  | cons p ps ih =>
    obtain ⟨p0, p1⟩ := p
    simp only [scanPairs]
    cases h0 : noteForeground bg fg p0 with
    | none =>
      obtain ⟨hp, f, hf, hne⟩ := (noteForeground_none ..).1 h0
      simp only [Bool.false_eq_true, false_iff]
      rintro ⟨-, h⟩
      exact hne (h p0 f ⟨hp, .inr ⟨_, List.mem_cons_self, .inl rfl⟩⟩ ⟨hfg f hf, .inl hf⟩)
    | some g0 =>
      obtain ⟨e0, c0⟩ := noteForeground_some _ _ _ _ h0
      have hg0 : ∀ f, g0 = some f → f ≠ bg := by grind
      simp only
      cases h1 : noteForeground bg g0 p1 with
      | none =>
        obtain ⟨hp, f, hf, hne⟩ := (noteForeground_none ..).1 h1
        simp only [Bool.false_eq_true, false_iff]
        rintro ⟨-, h⟩
        refine hne (h p1 f ⟨hp, .inr ⟨_, List.mem_cons_self, .inr rfl⟩⟩ ⟨hg0 f hf, ?_⟩)
        rw [e0] at hf
        split at hf
        · exact .inl hf
        · cases hf
          exact .inr ⟨_, List.mem_cons_self, .inl rfl⟩
      | some g1 =>
        obtain ⟨e1, c1⟩ := noteForeground_some _ _ _ _ h1
        have hg1 : ∀ f, g1 = some f → f ≠ bg := by grind
        simp only [counted_cons bg p0 p1 fg g0 g1 ps e0 c0 e1 c1]
        rw [ih g1 _ hg1]
        refine and_congr_left fun _ => ?_
        simp [or_assoc]

end Sys2Proof.Machine
end

