-- ==== Sys2Proof/Laws/Encoder.lean ====
section
/-! SUPPORT. The block buffer byte by byte and bit by bit, and where the scan of a block packs each code. -/

namespace Sys2Proof.Machine

/-- The byte at `k` after a write of `v` at `j`. -/
theorem bufByte_setIfInBounds (b : Vector Byte 64) (j k : Nat) (v : Byte) (hj : j < 64) :
    bufByte (b.setIfInBounds j v) k = if j = k then v else bufByte b k := by
  unfold bufByte
  rw [Vector.getElem?_setIfInBounds]
  by_cases h : j = k
  · simp [h, h ▸ hj]
  · simp [h]

/-- The buffer before the scan. -/
theorem bufByte_freshBuffer (ctx : Context) (pad : Byte) (b : Vector Byte 64) (j : Nat) :
    bufByte (freshBuffer ctx pad b) j =
      match ctx with
      | .character => if j < 8 then 0#8 else bufByte b j
      | .sprite => if j = 63 then pad else 0#8 := by
  cases ctx with
  | character =>
    simp only [freshBuffer]
    rw [show List.range 8 = [0, 1, 2, 3, 4, 5, 6, 7] by decide]
    simp only [List.foldl_cons, List.foldl_nil]
    repeat rw [bufByte_setIfInBounds _ _ _ _ (by omega)]
    grind
  | sprite =>
    simp only [freshBuffer]
    rw [bufByte_setIfInBounds _ _ _ _ (by omega)]
    by_cases h : j = 63
    · simp [h]
    · by_cases hj : j < 64 <;> simp [h, Ne.symm h, bufByte, hj]

/-- The bit `i` of the byte `j` after a code is packed: the bits of the code's place take the code, by an OR. -/
theorem getLsbD_packCode (ctx : Context) (width : PixelWidth) (x y : Nat) (c : BitVec 2) (b : Vector Byte 64)
    (j i : Nat) (h : y * rowBytes ctx + x / 8 < 64) :
    (bufByte (packCode ctx width x y c b) j).getLsbD i =
      ((bufByte b j).getLsbD i ||
        (decide (y * rowBytes ctx + x / 8 = j) && decide (i < 8) &&
          decide (8 - pixelBits width - x % 8 ≤ i) && c.getLsbD (i - (8 - pixelBits width - x % 8)))) := by
  unfold packCode
  rw [bufByte_setIfInBounds _ _ _ _ h]
  generalize 8 - pixelBits width - x % 8 = sh
  split
  · rename_i e
    subst e
    simp only [BitVec.getLsbD_or, BitVec.getLsbD_shiftLeft, BitVec.getLsbD_setWidth]
    by_cases hi : i < 8 <;> by_cases hs : sh ≤ i
    · have h1 : ¬ i < sh := by omega
      have h2 : i - sh < 8 := by omega
      simp only [hi, hs, h1, h2, decide_true, decide_false, Bool.not_false, Bool.true_and]
    · have h1 : i < sh := by omega
      simp only [hi, hs, h1, decide_true, decide_false, Bool.not_true, Bool.and_false, Bool.false_and]
    · simp only [hi, decide_false, Bool.false_and, Bool.and_false]
    · simp only [hi, decide_false, Bool.false_and, Bool.and_false]
  · rename_i e
    simp only [e, decide_false, Bool.false_and, Bool.or_false]

/-- A pixel of the scan is inside its block, and its code within a data byte of the buffer. -/
theorem scanOrder_bounds (ctx : Context) (width : PixelWidth) :
    ∀ p ∈ scanOrder ctx width, p.1 < regionWidth ctx ∧ p.2 < regionHeight ctx ∧
      p.1 % 8 + pixelBits width ≤ 8 ∧ p.2 * rowBytes ctx + p.1 / 8 < dataBytes ctx := by
  cases ctx <;> cases width <;> decide +kernel

/-- The code of a learning resolver is one of the codes of its roles. -/
theorem learnRole_code (w : PixelWidth) (ctx : Context) (p : Byte) (f : RoleFile) :
    (learnRole w ctx p f).1 = catchAllCode w ctx ∨ ∃ e ∈ roleOrder w ctx, (learnRole w ctx p f).1 = e.2 := by
  unfold learnRole
  split
  · rename_i e h
    exact .inr ⟨e, List.mem_of_find?_eq_some h, rfl⟩
  · split
    · rename_i e h
      exact .inr ⟨e, List.mem_of_find?_eq_some h, rfl⟩
    · exact .inl rfl

/-- A hires code is one bit. -/
theorem resolvePixel_hires_le (fg : Option Byte) (p : Byte) (ctx : Context) (f : RoleFile) :
    (resolvePixel fg p .hires ctx f).1.toNat ≤ 1 := by
  unfold resolvePixel
  cases fg with
  | some v =>
    simp only
    split <;> decide
  | none =>
    simp only
    rcases learnRole_code .hires ctx p f with h | ⟨e, he, h⟩ <;> rw [h]
    · cases ctx <;> decide
    · simp only [roleOrder, List.mem_cons, List.not_mem_nil, or_false] at he
      rcases he with rfl | rfl <;> decide

/-- The flag `BLK_BLANK` of a block. -/
theorem blankBlock_iff (ctx : Context) (b : Vector Byte 64) :
    blankBlock ctx b = true ↔ ∀ j, j < dataBytes ctx → bufByte b j = 0#8 := by
  simp [blankBlock, List.all_eq_true]

/-- A character's scan depends on the raster, the foreground and the role defaults alone: not on what the buffer held before. -/
theorem scanBlock_character_congr (s u : State) (x y : Nat) (w : PixelWidth)
    (hr : ∀ x y, rasterRead u x y = rasterRead s x y) (hf : foreground u = foreground s)
    (hd : roleDefaults u = roleDefaults s) :
    (scanBlock u x y .character w).1 = (scanBlock s x y .character w).1 ∧
      ∀ j, j < 8 → bufByte (scanBlock u x y .character w).2 j = bufByte (scanBlock s x y .character w).2 j := by
  have hlt : ∀ p ∈ scanOrder .character w, p.2 + p.1 / 8 < 8 := fun p hp => by
    simpa only [dataBytes, rowBytes, Nat.mul_one] using (scanOrder_bounds _ _ p hp).2.2.2
  have h0 : ∀ j, j < 8 → bufByte (freshBuffer .character u.cfgSprPad u.buf) j =
      bufByte (freshBuffer .character s.cfgSprPad s.buf) j := fun j hj => by
    simp only [bufByte_freshBuffer, hj, if_true]
  unfold scanBlock
  revert h0 hlt
  rw [hd]
  generalize roleDefaults s = r, scanOrder .character w = l, freshBuffer .character u.cfgSprPad u.buf = a,
    freshBuffer .character s.cfgSprPad s.buf = b
  induction l generalizing r a b with
  | nil => exact fun _ h => ⟨rfl, h⟩
  | cons p l ih =>
    intro hlt h
    have hp := hlt p List.mem_cons_self
    simp only [List.foldl_cons, scanPixel, hf, hr]
    refine ih _ _ _ (fun q hq => hlt q (List.mem_cons_of_mem _ hq)) fun j hj => ?_
    unfold packCode
    rw [bufByte_setIfInBounds _ _ _ _ (by simp only [rowBytes]; omega),
      bufByte_setIfInBounds _ _ _ _ (by simp only [rowBytes]; omega), h j hj,
      h (p.2 * rowBytes .character + p.1 / 8) (by simp only [rowBytes]; omega)]

end Sys2Proof.Machine
end

