-- ==== Sys2Proof/Laws/PerInstr.lean ====
section
/-! SUPPORT. Statements made per instruction: one lemma for each constructor of `Instr`. -/

namespace Sys2Proof.Laws.OpcodeField

/-- The opcode that R96 gives a command. -/
def opcodeOf : Instr → BitVec 4
  | .clear => 0x0#4
  | .roleReset => 0x1#4
  | .resolve _ _ _ => 0x2#4
  | .detect _ _ _ => 0x3#4
  | .encode _ _ _ _ => 0x4#4
  | .lookupInsert => 0x5#4
  | .promoteEmpty => 0x6#4
  | .buildCell _ _ => 0x7#4
  | .buildCharmap => 0x8#4
  | .finalize => 0x9#4
  | .readDict _ _ => 0xA#4
  | .readMap _ => 0xA#4
  | .readCmap _ => 0xA#4
  | .readBuf _ => 0xA#4

/-- R90, R96: bits 31:28 of a command's word are its opcode. -/
def Statement (i : Instr) : Prop := (Sys2Proof.encode i).extractLsb' 28 4 = opcodeOf i

/-- A word's top field, from the word as a number. -/
theorem of_toNat {w : Word} {op : BitVec 4} (h : w.toNat / 2 ^ 28 = op.toNat) : w.extractLsb' 28 4 = op := by
  apply BitVec.eq_of_toNat_eq
  rw [toNat_field, h]
  omega

theorem clear : Statement .clear := by unfold Statement; decide

theorem roleReset : Statement .roleReset := by unfold Statement; decide

theorem resolve (ctx : Context) (width : PixelWidth) (pix : Byte) : Statement (.resolve ctx width pix) := by
  have h1 := toNat_contextBit_le ctx
  have h2 := toNat_widthBit_le width
  have h3 := pix.isLt
  refine of_toNat ?_
  simp only [Sys2Proof.encode, opcodeOf, BitVec.toNat_setWidth, toNat_append_mul]
  simp
  omega

theorem detect (ctx : Context) (x y : BitVec 12) : Statement (.detect ctx x y) := by
  have h1 := toNat_contextBit_le ctx
  have h2 := x.isLt
  have h3 := y.isLt
  refine of_toNat ?_
  simp only [Sys2Proof.encode, opcodeOf, BitVec.toNat_setWidth, toNat_append_mul]
  simp
  omega

theorem encode (ctx : Context) (wsel : WidthSel) (x y : BitVec 12) : Statement (.encode ctx wsel x y) := by
  have h1 := toNat_contextBit_le ctx
  have h2 := toNat_widthSelBits_le wsel
  have h3 := x.isLt
  have h4 := y.isLt
  refine of_toNat ?_
  simp only [Sys2Proof.encode, opcodeOf, BitVec.toNat_setWidth, toNat_append_mul]
  simp
  omega

theorem lookupInsert : Statement .lookupInsert := by unfold Statement; decide

theorem promoteEmpty : Statement .promoteEmpty := by unfold Statement; decide

theorem buildCell (cx cy : BitVec 12) : Statement (.buildCell cx cy) := by
  have h1 := cx.isLt
  have h2 := cy.isLt
  refine of_toNat ?_
  simp only [Sys2Proof.encode, opcodeOf, BitVec.toNat_setWidth, toNat_append_mul]
  simp
  omega

theorem buildCharmap : Statement .buildCharmap := by unfold Statement; decide

theorem finalize : Statement .finalize := by unfold Statement; decide

theorem readDict (idx : Index) (byte : Byte) : Statement (.readDict idx byte) := by
  have h1 := idx.isLt
  have h2 := byte.isLt
  refine of_toNat ?_
  simp only [Sys2Proof.encode, opcodeOf, BitVec.toNat_setWidth, toNat_append_mul]
  simp
  omega

theorem readMap (idx : Index) : Statement (.readMap idx) := by
  have h1 := idx.isLt
  refine of_toNat ?_
  simp only [Sys2Proof.encode, opcodeOf, BitVec.toNat_setWidth, toNat_append_mul]
  simp
  omega

theorem readCmap (idx : Index) : Statement (.readCmap idx) := by
  have h1 := idx.isLt
  refine of_toNat ?_
  simp only [Sys2Proof.encode, opcodeOf, BitVec.toNat_setWidth, toNat_append_mul]
  simp
  omega

theorem readBuf (byte : Byte) : Statement (.readBuf byte) := by
  have h1 := byte.isLt
  refine of_toNat ?_
  simp only [Sys2Proof.encode, opcodeOf, BitVec.toNat_setWidth, toNat_append_mul]
  simp
  omega

end Sys2Proof.Laws.OpcodeField
end

