-- ==== Sys2Proof/Tests/Slice0.lean ====
section
/-! SUPPORT. The model's own tests: the well-formedness smoke test, the decoding of words written out from the encodings of
spec/30_encoding.md, single steps with the expected values of spec/95_test_vectors.md, and for each statement with
hypotheses a concrete state that meets them. -/

-- Each of these proofs is a kernel evaluation. One after another they need one thread's memory.
set_option Elab.async false

namespace Sys2Proof.Tests

open Sys2Proof Sys2Proof.Machine

/-! ### Well-formedness (R97) -/

theorem test_wellFormed_refuses_reserved_width : (Instr.encode .character .reserved 0#12 0#12).wellFormed = false := by
  decide

theorem test_wellFormed_refuses_reserved_width_of_a_sprite :
    (Instr.encode .sprite .reserved 0xFFF#12 1#12).wellFormed = false := by decide

theorem test_wellFormed_accepts_the_widths :
    (Instr.encode .character .auto 0#12 0#12).wellFormed = true ∧ (Instr.encode .sprite .hires 0#12 0#12).wellFormed = true ∧
    (Instr.encode .sprite .multicolor 0#12 0#12).wellFormed = true := by decide

/-! ### Decoding: one word or more for every command, the fields written out from R91-R94 and R96 (vectors V-CD, W1) -/

theorem test_decode_clear : decode 0x00000000#32 = .legal .clear := by decide
theorem test_decode_roleReset : decode 0x10000000#32 = .legal .roleReset := by decide
/-- OP 0010, CTX 0, W 1, zeros, PIX 00001011. -/
theorem test_decode_resolve :
    decode 0b00100100000000000000000000001011#32 = .legal (.resolve .character .multicolor 11#8) := by decide
/-- OP 0010, CTX 1, W 0, zeros, PIX 00000011. -/
theorem test_decode_resolve_sprite :
    decode 0b00101000000000000000000000000011#32 = .legal (.resolve .sprite .hires 3#8) := by decide
theorem test_decode_detect_sprite : decode 0x38000000#32 = .legal (.detect .sprite 0#12 0#12) := by decide
/-- OP 0011, CTX 0, WSEL 00, 0, Y 000000001000, X 000000010000. -/
theorem test_decode_detect :
    decode 0b00110000000000001000000000010000#32 = .legal (.detect .character 16#12 8#12) := by decide
theorem test_decode_detect_far : decode 0x30FFFFFF#32 = .legal (.detect .character 4095#12 4095#12) := by decide
/-- OP 0100, CTX 0, WSEL 01, 0, Y 0, X 0. -/
theorem test_decode_encode_hires :
    decode 0b01000010000000000000000000000000#32 = .legal (.encode .character .hires 0#12 0#12) := by decide
theorem test_decode_encode_multicolor : decode 0x4C000000#32 = .legal (.encode .sprite .multicolor 0#12 0#12) := by decide
theorem test_decode_encode_auto : decode 0x48015000#32 = .legal (.encode .sprite .auto 0#12 21#12) := by decide
theorem test_decode_lookupInsert : decode 0x50000000#32 = .legal .lookupInsert := by decide
theorem test_decode_promoteEmpty : decode 0x60000000#32 = .legal .promoteEmpty := by decide
/-- OP 0111, CTX 0, WSEL 00, 0, Y 000000000001, X 000000000010. -/
theorem test_decode_buildCell :
    decode 0b01110000000000000001000000000010#32 = .legal (.buildCell 2#12 1#12) := by decide
theorem test_decode_buildCharmap : decode 0x80000000#32 = .legal .buildCharmap := by decide
theorem test_decode_finalize : decode 0x90000000#32 = .legal .finalize := by decide
/-- OP 1010, SEL 0000, IDX 0000000000000001, BYTE 00000111. -/
theorem test_decode_readDict :
    decode 0b10100000000000000000000100000111#32 = .legal (.readDict 1#16 7#8) := by decide
theorem test_decode_readDict_far : decode 0xA0FFFF07#32 = .legal (.readDict 65535#16 7#8) := by decide
/-- OP 1010, SEL 0001, IDX 0000000000000011, BYTE 0. -/
theorem test_decode_readMap : decode 0b10100001000000000000001100000000#32 = .legal (.readMap 3#16) := by decide
/-- OP 1010, SEL 0010, IDX 0000000000000001, BYTE 0. -/
theorem test_decode_readCmap : decode 0b10100010000000000000000100000000#32 = .legal (.readCmap 1#16) := by decide
/-- OP 1010, SEL 0011, IDX 0, BYTE 00111111. -/
theorem test_decode_readBuf : decode 0b10100011000000000000000000111111#32 = .legal (.readBuf 63#8) := by decide

theorem test_decode_table_word : decodeTableWord 32 0x70001002 = some (.buildCell 2#12 1#12) := by decide
theorem test_decode_table_word_of_an_illegal_one : decodeTableWord 32 0xB0000000 = none := by decide +kernel

/-- V-IL-1. -/
theorem test_illegal_opcode :
    [0xB0000000#32, 0xC0000000#32, 0xD0000000#32, 0xE0000000#32, 0xF0000000#32, 0xFFFFFFFF#32].map decode =
      List.replicate 6 (.illegal .reservedOpcode) := by decide +kernel

/-- V-IL-2 to V-IL-5, V-IL-6, V-IL-7, V-IL-9, V-IL-11, V-IL-12. -/
theorem test_illegal_must_be_zero :
    [0x00000001#32, 0x10000001#32, 0x50000100#32, 0x60800000#32, 0x80000001#32, 0x90000010#32, 0x20000100#32,
      0x22000005#32, 0x31000000#32, 0x32000000#32, 0x34000000#32, 0x3E000000#32, 0x41000000#32, 0x49000000#32, 0x78000000#32,
      0x72000000#32, 0x71000000#32, 0xA1000001#32, 0xA2000080#32, 0xA3000100#32].map decode =
      List.replicate 20 (.illegal .mustBeZero) := by decide +kernel

/-- V-IL-8. -/
theorem test_illegal_width_selection :
    [0x46000000#32, 0x4E000000#32].map decode =
      List.replicate 2 (.illegal .reservedWsel) := by decide +kernel

/-- V-IL-10. -/
theorem test_illegal_array_selection :
    [0xA4000000#32, 0xAF000000#32].map decode =
      List.replicate 2 (.illegal .reservedSel) := by decide +kernel

/-! ### The states of the tests -/

/-- The outcome is a next state of which `p` holds. -/
def answers (o : Host.Outcome State Fault Refusal) (p : State → Bool) : Bool :=
  match o with
  | .next t => p t
  | .fault _ => false
  | .refused _ => false

/-- The next state of an outcome, and `d` if it has none. -/
def nextOr (d : State) (o : Host.Outcome State Fault Refusal) : State :=
  match o with
  | .next t => t
  | .fault _ => d
  | .refused _ => d

theorem eq_next_of_answers {o : Host.Outcome State Fault Refusal} (d : State) (h : answers o (fun _ => true) = true) :
    o = .next (nextOr d o) := by
  cases o with
  | next t => rfl
  | fault r => simp [answers] at h
  | refused r => simp [answers] at h

/-- The image of `w` by `h` pixels with palette index `f x y` at `(x, y)`. -/
def image (w h : Nat) (f : Nat → Nat → Nat) : Memory :=
  (List.range h).flatMap fun y =>
    ((List.range w).filter fun x => f x y != 0).map fun x => (pixelAddress x y, BitVec.ofNat 8 (f x y))

/-- The start state of the vectors (spec/95_test_vectors.md section 0): reset, both capacities 64, `SET_RASTER w, h` and the
image `f`. -/
def start (w h : Nat) (f : Nat → Nat → Nat) : State :=
  { State.reset with
    dictCap := 64, mapCap := 64, rasterDim := BitVec.ofNat 16 h ++ BitVec.ofNat 16 w, rasterFmt := 1#1, raster := image w h f }

/-- `start` with an image of zeros. -/
def blank (w h : Nat) : State := start w h fun _ _ => 0

/-- The raster `PROMO`. -/
def promo (x y : Nat) : Nat :=
  if x / 8 = 1 then 0 else if x / 8 = 2 then (if x % 8 = 0 then 1 else 0) else if x % 8 = y then 1 else 0

/-- The raster `MCI`. -/
def mci (x y : Nat) : Nat :=
  if x < 8 then (if x % 2 = 0 then 5 else 0)
  else if y < 4 then [0, 0, 2, 2, 4, 4, 1, 1].getD (x - 8) 0 else 0

/-- The diagonal block `80 40 20 10 08 04 02 01`. -/
def diagonal : Block := #v[0x80#8, 0x40#8, 0x20#8, 0x10#8, 0x08#8, 0x04#8, 0x02#8, 0x01#8]

/-- The block `80×8`. -/
def column : Block := Vector.replicate 8 0x80#8

/-- The dictionary and the maps of P2 before `FINALIZE`, and its offset. -/
def built : State :=
  { blank 32 8 with
    cfgOffset := 0x40#16, dict := [diagonal, zeroBlock, column], emptyRec := some 1#16
    cells := [(0, ⟨0#16, 1#8⟩), (1, ⟨1#16, 0#8⟩), (2, ⟨2#16, 1#8⟩), (3, ⟨0#16, 1#8⟩)] }

/-- A blank character is in the buffer, as after `ENCODE` of zeros. -/
def blankBuffered : State := { blank 8 8 with status := { Status.clear with blkV := true, blkBlank := true } }

/-- `s` with a fault recorded. -/
def withFault (s : State) : State := raiseFault 0xB0000000#32 .illegalCommand noCell s

/-- `s` with one event pending. -/
def pending (e : HostEvent) (s : State) : State := { s with queue := [e] }

/-- One step on the command word `w`, and what must then hold. -/
def after (w : Nat) (s : State) (p : State → Bool) : Bool := answers (step (s.withFetchWord 32 w)) p

/-! ### One step of every command -/

/-- W12. -/
theorem test_clear_leaves_the_fault_state :
    after 0 (withFault built) (fun t => statusWord t.status == 0 && t.dict == [] && t.cells == [] && t.emptyRec == none &&
      t.errCmd == 0 && t.errCell == 0xFFFFFFFF#32 && t.cfgOffset == 0x40#16) = true := by decide +kernel

/-- V-FA-6, V-FA-2. -/
theorem test_only_the_word_zero_clears :
    after 1 (withFault built) (fun t => statusWord t.status == 0x241#32 && t.dict == built.dict && t.errCmd == 0xB0000000#32) =
      true := by decide +kernel

/-- W2. -/
theorem test_roleReset_loads_the_configuration :
    after 0x10000000 { State.reset with cfgBg := 0x106#9, cfgMc := 0x10402#17 } (fun t =>
      roleValWord t.roles == 0x00040206#32 && roleBoundWord t.roles == 7#32 && statusWord t.status == 0) = true := by
  decide +kernel

/-- V-RS-12. -/
theorem test_roleReset_refuses_both_options :
    after 0x10000000 { State.reset with cfgFg := 0x101#9, cfgMc := 0x10302#17 } (fun t =>
      statusWord t.status == 0x61#32 && t.roles == RoleFile.unbound && t.errCmd == 0x10000000#32) = true := by decide +kernel

/-- P1, the fourth `RESOLVE` of the sprite: `MC2` is `11` there. -/
theorem test_resolve_binds_in_priority_order :
    after 0x2C000009 { State.reset with roles := ⟨some 5#8, some 7#8, none, none⟩ } (fun t =>
      t.result == 3#32 && t.roles == ⟨some 5#8, some 7#8, some 9#8, none⟩) = true := by decide +kernel

/-- V-RS-10, the second pixel: in hires the multicolor roles take no part. -/
theorem test_resolve_hires_skips_the_multicolor_roles :
    after 0x20000004 { State.reset with roles := ⟨some 2#8, some 2#8, some 4#8, none⟩ } (fun t =>
      t.result == 1#32 && roleValWord t.roles == 0x04040202#32) = true := by decide +kernel

/-- V-DE-5, the background learned. -/
theorem test_detect_learns_the_background :
    after 0x30000000 (start 8 8 fun x _ => if x % 2 = 1 then 5 else 6) (fun t => t.result == 1#32) = true := by decide +kernel

/-- V-DE-5 with `CFG_BG = 0x100`: two foreground values. -/
theorem test_detect_rejects_two_foregrounds :
    after 0x30000000 { start 8 8 (fun x _ => if x % 2 = 1 then 5 else 6) with cfgBg := 0x100#9, result := 9#32 } (fun t =>
      t.result == 0#32) = true := by decide +kernel

/-- V-EN-10: the fifth value gets the catch-all. -/
theorem test_encode_packs_a_multicolor_character :
    after 0x44000000
      { start 8 8 (fun x y => if y = 0 then [0, 0, 1, 1, 2, 2, 3, 3].getD x 0 else if y = 1 then (if x < 2 then 4 else 0) else 0)
        with cfgBg := 0x100#9 }
      (fun t => t.buf.toList.take 8 == [0x1B#8, 0xC0#8, 0#8, 0#8, 0#8, 0#8, 0#8, 0#8] && t.result == 1#32 &&
        statusWord t.status == 0x1800#32 && roleValWord t.roles == 0x03020100#32 && roleBoundWord t.roles == 0xF#32) = true := by
  decide +kernel

/-- V-EN-15 with the pad of V-EN-18: the sprite's codes and byte 63. -/
theorem test_encode_packs_a_multicolor_sprite :
    after 0x48000000
      { start 24 21 (fun x y => if y = 0 then [0, 0, 2, 2, 4, 4, 1, 1].getD x 0 else 0) with
        cfgBg := 0x100#9, cfgMc := 0x10402#17, cfgSprPad := 0xAB#8 }
      (fun t => t.buf.toList == 0x1E#8 :: (List.replicate 62 0#8 ++ [0xAB#8]) && t.result == 1#32 &&
        statusWord t.status == 0x3800#32) = true := by decide +kernel

/-- V-DI-6, its `LOOKUP_INSERT`. -/
theorem test_lookupInsert_records_the_empty_block :
    after 0x50000000 blankBuffered (fun t => t.result == 0x10000#32 && emptyRecWord t.emptyRec == 0#32 &&
      t.dict == [zeroBlock] && statusWord t.status == 0x4C00#32) = true := by decide +kernel

/-- V-DI-4, its last command. -/
theorem test_lookupInsert_into_a_full_dictionary :
    after 0x50000000
      { blankBuffered with
        dictCap := 1, dict := [diagonal], result := 2#32
        status := { Status.clear with blkV := true, blkBlank := true, newEntry := true } }
      (fun t => statusWord t.status == 0x4C11#32 && t.result == 2#32 && t.dict == [diagonal] &&
        emptyRecWord t.emptyRec == 0x80000000#32 && t.errCell == 0xFFFFFFFF#32) = true := by decide +kernel

/-- W8, V-DI-9. -/
theorem test_promoteEmpty_swaps_and_relabels :
    after 0x60000000 built (fun t => t.dict == [zeroBlock, diagonal, column] &&
      t.cells.map (fun c => c.2.idx) == [1#16, 0#16, 2#16, 1#16] && t.cells.map (fun c => c.2.attr) == [1#8, 0#8, 1#8, 1#8] &&
      t.result == 0x00010001#32 && t.emptyRec == some 0#16) = true := by decide +kernel

/-- V-DI-5. -/
theorem test_promoteEmpty_of_nothing : after 0x60000000 State.reset (fun t => t.result == 0x80000000#32 && t.dict == []) = true := by
  decide +kernel

/-- W9. -/
theorem test_buildCell_builds_the_first_cell :
    after 0x70000000 { start 32 8 promo with cfgBg := 0x100#9 } (fun t => t.dict == [diagonal] &&
      t.cells == [(0, ⟨0#16, 1#8⟩)] && t.result == 0x00010000#32) = true := by decide +kernel

/-- V-CM-15, its second command. -/
theorem test_buildCell_beyond_the_map :
    after 0x70000003 { start 32 8 promo with cfgBg := 0x100#9, mapCap := 3 } (fun t => statusWord t.status == 0x11#32 &&
      t.errCell == 3#32 && t.errCmd == 0x70000003#32 && t.dict == []) = true := by decide +kernel

/-- V-CM-4: a multicolor image with a hires cell and the marker. -/
theorem test_buildCharmap_of_a_multicolor_image :
    after 0x80000000
      { start 16 8 mci with cfgBg := 0x100#9, cfgMc := 0x10402#17, cfgAttr := 0x08070F0E#32 }
      (fun t => t.dict == [Vector.replicate 8 0xAA#8, #v[0x1B#8, 0x1B#8, 0x1B#8, 0x1B#8, 0#8, 0#8, 0#8, 0#8]] &&
        t.cells == [(0, ⟨0#16, 0x0D#8⟩), (1, ⟨1#16, 0x01#8⟩)] && t.result == 2#32 && statusWord t.status == 0x1C00#32) = true := by
  decide +kernel

/-- P4, the fault. -/
theorem test_buildCharmap_overflows_the_dictionary :
    after 0x80000000 { start 32 8 promo with cfgBg := 0x100#9, dictCap := 2 } (fun t => t.dict == [diagonal, zeroBlock] &&
      t.cells == [(0, ⟨0#16, 1#8⟩), (1, ⟨1#16, 0#8⟩)] && t.emptyRec == some 1#16 && bufBlock t == column && t.result == 0#32 &&
      statusWord t.status == 0xC11#32 && t.errCmd == 0x80000000#32 && t.errCell == 2#32) = true := by decide +kernel

/-- W11. -/
theorem test_finalize_warns_above_the_limit :
    after 0x90000000 { built with cfgOffset := 254#16 } (fun t => t.result == 257#32 && statusWord t.status == 0x100#32) = true := by
  decide +kernel

/-- W11, the boundary. -/
theorem test_finalize_does_not_warn_at_the_limit :
    after 0x90000000 { built with cfgOffset := 253#16 } (fun t => t.result == 256#32 && statusWord t.status == 0#32 &&
      t.dict == [zeroBlock, diagonal, column]) = true := by decide +kernel

/-- P2, its last command, on the dictionary as it stands after the promotion. -/
theorem test_readDict_of_the_last_byte :
    after 0xA0000107 { built with dict := [zeroBlock, diagonal, column] } (fun t => t.result == 1#32) = true := by decide +kernel

/-- V-HA-9. -/
theorem test_readDict_of_byte_eight :
    after 0xA0000008 built (fun t => statusWord t.status == 0x51#32 && t.result == 0#32) = true := by decide +kernel

/-- P2, `READ.MAP 0` before the promotion. -/
theorem test_readMap_adds_the_offset : after 0xA1000000 built (fun t => t.result == 0x40#32) = true := by decide +kernel

/-- V-HA-7. -/
theorem test_readMap_of_an_unwritten_cell :
    after 0xA1000400 built (fun t => statusWord t.status == 0x51#32 && t.errCmd == 0xA1000400#32) = true := by decide +kernel

/-- P3, `READ.CMAP 0`. -/
theorem test_readCmap_of_a_marked_cell :
    after 0xA2000000 { built with cells := [(0, ⟨0#16, 0x0D#8⟩)] } (fun t => t.result == 0x0D#32) = true := by decide +kernel

/-- R202: an unwritten cell. -/
theorem test_readCmap_of_an_unwritten_cell : after 0xA2000400 built (fun t => statusWord t.status == 0x51#32) = true := by
  decide +kernel

/-- P5, the pad byte. -/
theorem test_readBuf_of_the_pad :
    after 0xA300003F
      { State.reset with
        buf := (Vector.replicate 64 0#8).set 63 0xAB#8
        status := { Status.clear with blkV := true, blkSpr := true, blkBlank := true } }
      (fun t => t.result == 0xAB#32) = true := by decide +kernel

/-- V-HA-6. -/
theorem test_readBuf_beyond_a_character : after 0xA3000008 blankBuffered (fun t => statusWord t.status == 0x4851#32) = true := by
  decide +kernel

/-! ### The bus -/

/-- V-HA-3. -/
theorem test_write_drops_the_reserved_bits :
    answers (step (pending (.write .word 0x08#8 0xFFFFFFFF#32) State.reset)) (fun t => readReg .cfgBg t == 0x1FF#32) = true ∧
    answers (step (pending (.write .word 0x10#8 0xFFFFFFFF#32) State.reset)) (fun t => readReg .cfgMc t == 0x1FFFF#32) = true ∧
    answers (step (pending (.write .word 0x04#8 0xFFFFFFFF#32) State.reset)) (fun t => readReg .ctrl t == 0x7#32) = true := by
  decide +kernel

/-- V-HA-4. -/
theorem test_map_dim_of_24_by_42 :
    answers (step (pending (.write .word 0x24#8 0x002A0018#32) State.reset)) (fun t => readReg .mapDim t == 0x00050003#32) =
      true := by decide +kernel

/-- V-HA-1, the registers from `ID` on. -/
theorem test_registers_after_reset :
    (List.range 24).map (fun n => readReg (regAt n) { State.reset with dictCap := 64, mapCap := 1000 }) =
      [0x53324131#32, 0, 0, 0, 0, 0, 0, 0x08070F00#32, 0, 0, 0, 0, 0, 0, 0, 0x80000000#32, 0, 0, 0, 0xFFFFFFFF#32, 0, 0x40#32,
        0x3E8#32, 0] := by decide +kernel

/-! ### For each statement with hypotheses, a state and operands that meet them -/

/-- The checks that make a state without a fault a good one, each of them decidable. -/
theorem inv_of_checks {s : State} (hfault : s.status.fault = false)
    (hcaps : 1 ≤ s.dictCap ∧ s.dictCap ≤ 65536 ∧ 1 ≤ s.mapCap ∧ s.mapCap ≤ 65536)
    (hdict : s.dict.length ≤ s.dictCap ∧ s.dict.Nodup)
    (hempty : (match s.emptyRec with
      | none => decide (zeroBlock ∉ s.dict)
      | some e => decide (s.dict[e.toNat]? = some zeroBlock)) = true)
    (hcells : sparseSorted s.cells = true ∧ ∀ c ∈ s.cells, c.1 < s.mapCap ∧ c.2.idx.toNat < s.dict.length)
    (hrecord : s.status.err = 0 ∧ s.status.ign = false ∧ s.errCmd = 0 ∧ s.errCell = noCell)
    (hblock : (if s.status.blkV then s.status.blkBlank == blankBlock (bufferedContext s) s.buf
      else !s.status.blkSpr && !s.status.blkMc && !s.status.blkBlank) = true)
    (hraster : Memory.wf s.raster = true) : Inv s := by
  refine ⟨hcaps, hdict, ?_, hcells, ?_, ?_, hraster⟩
  · unfold emptyRecLegal
    cases h : s.emptyRec with
    | none => simpa [h] using hempty
    | some e => simpa [h] using hempty
  · simpa [faultLegal, hfault] using hrecord
  · unfold blockLegal
    split
    · next h => simpa [h] using hblock
    · next h => simpa [h, and_assoc] using hblock

/-- A 16 by 8 image of zeros but for palette index 5 at `(1, 0)`. -/
def dot : State := { blank 16 8 with raster := [(1, 5#8)] }

/-- `dot` with palette index 6 at `(2, 0)` as well. -/
def twoDots : State := { blank 16 8 with raster := [(1, 5#8), (2, 6#8)] }

theorem read_dot (x y : Nat) : rasterRead dot x y = if y * 65536 + x = 1 then 5#8 else 0#8 := by
  by_cases h : y * 65536 + x = 1
  · simp [rasterRead, Memory.read, dot, sparseGet?, pixelAddress, h]
  · simp [rasterRead, Memory.read, dot, sparseGet?, pixelAddress, Memory.unlisted, h, Ne.symm h]

theorem read_blank (x y : Nat) : rasterRead (blank 16 8) x y = 0#8 := by
  have h : (blank 16 8).raster = [] := by decide +kernel
  simp [rasterRead, Memory.read, h, sparseGet?, Memory.unlisted]

/-- The image of zeros is not hires by the closed form. -/
theorem blank_not_hires (ctx : Context) (x y : Nat) : ¬ hiresByClosedForm (blank 16 8) ctx x y := by
  rintro ⟨-, i, j, -, -, h⟩
  simp [read_blank] at h

/-- The image with one other pixel is. -/
theorem dot_hires : hiresByClosedForm dot .character 0 0 := by
  have hbg : regionBackground dot 0 0 = 0#8 := by decide +kernel
  refine ⟨⟨5#8, by rw [hbg]; decide, ⟨1, 0, by decide, by decide, by decide +kernel⟩, ?_⟩, 0, 0, by decide, by decide,
    by decide +kernel⟩
  rintro u hu ⟨a, b, -, -, h⟩
  rw [hbg] at hu
  rw [read_dot] at h
  split at h
  · exact h.symm
  · exact absurd h.symm hu

theorem witness_DecodeOfEncodeIsTheCommand :
    (Instr.encode .sprite .multicolor 0xFFF#12 0xFFF#12).wellFormed = true ∧ Instr.clear.wellFormed = true := by decide

theorem witness_EncodeOfDecodeIsTheWord :
    decode 0x4CFFFFFF#32 = .legal (.encode .sprite .multicolor 0xFFF#12 0xFFF#12) := by decide

/-- Both clauses, the illegal one at the ends of each case of R97. -/
theorem witness_IllegalWordsAreThoseOfTheListAndRaise :
    State.reset.status.fault = false ∧
    (illegalByR97 0xB0000000#32 ∧ illegalByR97 0xFFFFFFFF#32 ∧ illegalByR97 0x00000001#32 ∧ illegalByR97 0x98000000#32 ∧
      illegalByR97 0x20000100#32 ∧ illegalByR97 0x22000000#32 ∧ illegalByR97 0x31000000#32 ∧ illegalByR97 0x36000000#32 ∧
      illegalByR97 0x41000000#32 ∧ illegalByR97 0x46000000#32 ∧ illegalByR97 0x78000000#32 ∧ illegalByR97 0x71000000#32 ∧
      illegalByR97 0xA4000000#32 ∧ illegalByR97 0xA1000001#32 ∧ illegalByR97 0xA2000080#32 ∧ illegalByR97 0xA3000100#32) ∧
    (¬ illegalByR97 0x00000000#32 ∧ ¬ illegalByR97 0x2C0000FF#32 ∧ ¬ illegalByR97 0x38FFFFFF#32 ∧
      ¬ illegalByR97 0x4CFFFFFF#32 ∧ ¬ illegalByR97 0x70FFFFFF#32 ∧ ¬ illegalByR97 0xA0FFFFFF#32 ∧
      ¬ illegalByR97 0xA2FFFF00#32 ∧ ¬ illegalByR97 0xA30000FF#32) := by
  refine ⟨rfl, ⟨?_, ?_, ?_, ?_, ?_, ?_, ?_, ?_, ?_, ?_, ?_, ?_, ?_, ?_, ?_, ?_⟩,
    ?_, ?_, ?_, ?_, ?_, ?_, ?_, ?_⟩ <;> unfold illegalByR97 <;> decide +kernel

/-- The four clauses: `CLEAR` and an ignored word under a fault, a legal and an illegal word without one. -/
theorem witness_StepRunsTheIssuedCommand :
    ((pending (.write .word 0x2C#8 0#32) (withFault blankBuffered)).queue = [.write .word 0x2C#8 0#32] ∧
      (pending (.write .word 0x2C#8 0#32) (withFault blankBuffered)).status.fault = true) ∧
    ((pending (.write .word 0x2C#8 1#32) (withFault blankBuffered)).queue = [.write .word 0x2C#8 1#32] ∧
      (pending (.write .word 0x2C#8 1#32) (withFault blankBuffered)).status.fault = true ∧ (1#32 : Word) ≠ 0#32) ∧
    ((pending (.write .word 0x2C#8 0x50000000#32) blankBuffered).queue = [.write .word 0x2C#8 0x50000000#32] ∧
      (pending (.write .word 0x2C#8 0x50000000#32) blankBuffered).status.fault = false ∧
      decode 0x50000000#32 = .legal .lookupInsert) ∧
    ((pending (.write .word 0x2C#8 0xB0000000#32) blankBuffered).queue = [.write .word 0x2C#8 0xB0000000#32] ∧
      (pending (.write .word 0x2C#8 0xB0000000#32) blankBuffered).status.fault = false ∧
      decode 0xB0000000#32 = .illegal .reservedOpcode) := by decide +kernel

theorem witness_StepRunsTheDecodedWord :
    built.status.fault = false ∧ decodeTableWord 32 0xA1000300 = some (.readMap 3#16) := by decide +kernel

theorem witness_IdleUnitHoldsItsState : built.queue = [] := rfl

/-- Every word offset of the register map, 0x00 to 0xFC. -/
theorem witness_BusReadReturnsTheRegister : ∀ n < 64,
    (pending (.read .word (BitVec.ofNat 8 (4 * n))) built).queue = [.read .word (BitVec.ofNat 8 (4 * n))] ∧
      (BitVec.ofNat 8 (4 * n)).toNat % 4 = 0 := by decide +kernel

theorem witness_MapDimFollowsRasterDim :
    (pending (.write .word 0x24#8 0x002A0018#32) built).queue = [.write .word 0x24#8 0x002A0018#32] := by decide +kernel

/-- Every word offset of the register map but that of `CMD`: those with defined bits, the RO ones and the reserved ones. -/
theorem witness_BusWriteSetsTheDefinedBits : ∀ n < 64, n ≠ 0xB →
    (pending (.write .word (BitVec.ofNat 8 (4 * n)) 0xFFFFFFFF#32) built).queue =
        [.write .word (BitVec.ofNat 8 (4 * n)) 0xFFFFFFFF#32] ∧
      (BitVec.ofNat 8 (4 * n)).toNat % 4 = 0 ∧ BitVec.ofNat 8 (4 * n) ≠ 0x2C#8 ∧
      (definedBits (regOfOffset (BitVec.ofNat 8 (4 * n))) ≠ 0#32 ↔ 1 ≤ n ∧ n ≤ 0xA) := by decide +kernel

/-- A narrow read, a narrow write, and a 32-bit access off a multiple of 4. -/
theorem witness_OtherAccessesAreRefused :
    ((pending (.read .byte 0x30#8) built).queue = [.read .byte 0x30#8] ∧ AccessSize.byte ≠ .word) ∧
    ((pending (.write .half 0x30#8 1#32) built).queue = [.write .half 0x30#8 1#32] ∧ AccessSize.half ≠ .word) ∧
    ((pending (.read .word 0x31#8) built).queue = [.read .word 0x31#8] ∧ (0x31#8).toNat % 4 ≠ 0) := by decide +kernel

theorem witness_HardResetSetsEveryRegister : (pending .hardReset (withFault built)).queue = [.hardReset] := by decide +kernel

theorem witness_ConnectedImageIsWhatIsRead :
    (pending (.connectRaster [(2 ^ 32 - 1, 7#8), (1, 5#8)]) built).queue = [.connectRaster [(2 ^ 32 - 1, 7#8), (1, 5#8)]] ∧
    (∀ c ∈ ([(2 ^ 32 - 1, 7#8), (1, 5#8)] : List Host.Cell), c.1 < Memory.size) ∧
    (([(2 ^ 32 - 1, 7#8), (1, 5#8)] : List Host.Cell).map Prod.fst).Nodup ∧
    (pixelAddress 1 0, 5#8) ∈ ([(2 ^ 32 - 1, 7#8), (1, 5#8)] : List Host.Cell) := by decide +kernel

theorem witness_ContradictoryOptionsRaiseConfigError :
    readsRoleConfig (.detect .sprite 9#12 0#12) ∧ (Instr.detect .sprite 9#12 0#12).wellFormed = true ∧
    { built with cfgFg := 0x101#9, cfgMc := 0x10302#17 }.cfgFg.getLsbD 8 = true ∧
    { built with cfgFg := 0x101#9, cfgMc := 0x10302#17 }.cfgMc.getLsbD 16 = true :=
  ⟨trivial, rfl, by decide, by decide⟩

theorem witness_RoleResetLoadsTheDefaults : configOk { built with cfgBg := 0x106#9, cfgMc := 0x10402#17 } := by
  unfold configOk
  decide +kernel

theorem witness_ResolveMatchesThenBindsThenCatchesAll : built.cfgFg.getLsbD 8 = false := by decide +kernel

theorem witness_ForegroundOverrideForcesHires :
    { built with cfgFg := 0x103#9 }.cfgFg.getLsbD 8 = true ∧ { built with cfgFg := 0x103#9 }.cfgMc.getLsbD 16 = false := by
  decide +kernel

theorem witness_NoRoleIsReboundWithinABlock :
    ¬ resetsRoles (.resolve .character .multicolor 9#8) ∧
    exec (.resolve .character .multicolor 9#8) { built with roles := ⟨some 5#8, none, none, none⟩ } =
      .next (nextOr built
        (exec (.resolve .character .multicolor 9#8) { built with roles := ⟨some 5#8, none, none, none⟩ })) ∧
    roleGet { built with roles := ⟨some 5#8, none, none, none⟩ }.roles .bg = some 5#8 :=
  ⟨id, eq_next_of_answers _ (by decide +kernel), rfl⟩

/-- Both clauses; the region of the second ends at the raster's edge. -/
theorem witness_DetectAnswersTheClosedForm :
    (configOk dot ∧ dot.rasterFmt = 1#1 ∧ regionInside dot .character (0#12).toNat (0#12).toNat ∧
      hiresByClosedForm dot .character (0#12).toNat (0#12).toNat) ∧
    (configOk (blank 16 8) ∧ (blank 16 8).rasterFmt = 1#1 ∧ regionInside (blank 16 8) .character (8#12).toNat (0#12).toNat ∧
      ¬ hiresByClosedForm (blank 16 8) .character (8#12).toNat (0#12).toNat) := by
  refine ⟨⟨?_, rfl, ?_, dot_hires⟩, ?_, rfl, ?_, blank_not_hires _ _ _⟩
  · unfold configOk; decide +kernel
  · unfold regionInside; decide +kernel
  · unfold configOk; decide +kernel
  · unfold regionInside; decide +kernel

theorem witness_DetectRejectsThreeColoursAndOneColour :
    (configOk twoDots ∧ twoDots.rasterFmt = 1#1 ∧ regionInside twoDots .character (0#12).toNat (0#12).toNat ∧
      (0#8 : Byte) ≠ 5#8 ∧ (5#8 : Byte) ≠ 6#8 ∧ (0#8 : Byte) ≠ 6#8 ∧
      regionHolds twoDots .character (0#12).toNat (0#12).toNat 0#8 ∧
      regionHolds twoDots .character (0#12).toNat (0#12).toNat 5#8 ∧
      regionHolds twoDots .character (0#12).toNat (0#12).toNat 6#8) ∧
    (configOk (blank 16 8) ∧ (blank 16 8).rasterFmt = 1#1 ∧ regionInside (blank 16 8) .character (8#12).toNat (0#12).toNat ∧
      ∀ v, regionHolds (blank 16 8) .character (8#12).toNat (0#12).toNat v → v = 0#8) := by
  refine ⟨⟨?_, rfl, ?_, by decide, by decide, by decide, ⟨0, 0, by decide, by decide, by decide +kernel⟩,
    ⟨1, 0, by decide, by decide, by decide +kernel⟩, ⟨2, 0, by decide, by decide, by decide +kernel⟩⟩, ?_, rfl, ?_, ?_⟩
  · unfold configOk; decide +kernel
  · unfold regionInside; decide +kernel
  · unfold configOk; decide +kernel
  · unfold regionInside; decide +kernel
  · rintro v ⟨a, b, -, -, h⟩
    exact h ▸ (read_blank _ _)

theorem witness_UnindexedRasterRaisesFormatError :
    samplesRaster (.encode .sprite .multicolor 0#12 0#12) ∧ (Instr.encode .sprite .multicolor 0#12 0#12).wellFormed = true ∧
    configOk State.reset ∧
    ¬ (asksMulticolor (.encode .sprite .multicolor 0#12 0#12) ∧ State.reset.cfgFg.getLsbD 8 = true) ∧
    State.reset.rasterFmt = 0#1 :=
  ⟨trivial, rfl, by unfold configOk; decide, by rintro ⟨-, h⟩; exact absurd h (by decide), rfl⟩

/-- The three clauses, one past the edge each: V-DE-10, V-EN-21, V-CM-13. -/
theorem witness_OutsideRegionsRaiseRangeError :
    (configOk (blank 16 8) ∧ (blank 16 8).rasterFmt = 1#1 ∧
      ¬ regionInside (blank 16 8) .character (9#12).toNat (0#12).toNat) ∧
    (configOk (blank 32 21) ∧ (blank 32 21).rasterFmt = 1#1 ∧
      ¬ regionInside (blank 32 21) .sprite (9#12).toNat (0#12).toNat ∧ WidthSel.auto ≠ .reserved ∧
      ¬ (WidthSel.auto = .multicolor ∧ (blank 32 21).cfgFg.getLsbD 8 = true)) ∧
    (configOk (blank 16 8) ∧ (blank 16 8).rasterFmt = 1#1 ∧
      (mapWidth (blank 16 8) ≤ (0#12).toNat ∨ mapHeight (blank 16 8) ≤ (1#12).toNat)) := by
  unfold configOk regionInside
  decide +kernel

/-- The hypotheses under which `ENCODE` completes. -/
def encodes (ctx : Context) (wsel : WidthSel) (x y : BitVec 12) (s : State) : Prop :=
  configOk s ∧ wsel ≠ .reserved ∧ ¬ (wsel = .multicolor ∧ s.cfgFg.getLsbD 8 = true) ∧ s.rasterFmt = 1#1 ∧
    regionInside s ctx x.toNat y.toNat

/-- A sprite that ends at the raster's edge (V-EN-20). -/
theorem witness_EncodeCompletesAtTheChosenWidth : encodes .sprite .auto 8#12 0#12 (blank 32 21) := by
  unfold encodes configOk regionInside
  decide +kernel

/-- A sprite at multicolor width, and a character. -/
theorem witness_EncodePacksTheResolvedCodes :
    encodes .sprite .multicolor 8#12 0#12 (blank 32 21) ∧ encodes .character .hires 8#12 0#12 dot := by
  unfold encodes configOk regionInside
  decide +kernel

theorem witness_ScanOrderIsRowByRow :
    (11 < regionWidth .sprite / pixelBits .multicolor ∧ 20 < regionHeight .sprite) ∧
    (7 < regionWidth .character / pixelBits .hires ∧ 7 < regionHeight .character) := by decide

theorem witness_BlankExactlyWhenEveryCodeIsZero :
    encodes .sprite .auto 8#12 0#12 (blank 32 21) ∧ encodes .character .hires 0#12 0#12 dot := by
  unfold encodes configOk regionInside
  decide +kernel

theorem witness_ForegroundOverrideEncodesTheForeground :
    { dot with cfgFg := 0x105#9 }.cfgFg.getLsbD 8 = true ∧ { dot with cfgFg := 0x105#9 }.cfgMc.getLsbD 16 = false ∧
    { dot with cfgFg := 0x105#9 }.rasterFmt = 1#1 ∧
    regionInside { dot with cfgFg := 0x105#9 } .character (8#12).toNat (0#12).toNat := by
  unfold regionInside
  decide +kernel

/-- Two states that differ in the dictionary, the maps, the roles and the offset. -/
theorem witness_EncodeIsDeterministic :
    encodes .character .auto 8#12 0#12 (blank 16 8) ∧
    (∀ u : State, u = { blank 16 8 with
        dict := built.dict, cells := built.cells, roles := ⟨some 1#8, none, none, none⟩, cfgOffset := 7#16 } →
      u.ctrl = (blank 16 8).ctrl ∧ u.cfgBg = (blank 16 8).cfgBg ∧ u.cfgFg = (blank 16 8).cfgFg ∧
      u.cfgMc = (blank 16 8).cfgMc ∧ u.cfgHint = (blank 16 8).cfgHint ∧ u.cfgSprPad = (blank 16 8).cfgSprPad ∧
      u.rasterDim = (blank 16 8).rasterDim ∧ u.rasterFmt = (blank 16 8).rasterFmt ∧
      ∀ a b, a < regionWidth .character → b < regionHeight .character →
        rasterRead u ((8#12).toNat + a) ((0#12).toNat + b) = rasterRead (blank 16 8) ((8#12).toNat + a) ((0#12).toNat + b)) := by
  refine ⟨?_, ?_⟩
  · unfold encodes configOk regionInside
    decide +kernel
  · rintro u rfl
    exact ⟨rfl, rfl, rfl, rfl, rfl, rfl, rfl, rfl, fun _ _ _ _ => rfl⟩

/-- The other image differs at `(1, 0)`, a right pixel. -/
theorem witness_RightPixelsDoNotCountInMulticolor :
    (blank 16 8).cfgFg.getLsbD 8 = false ∧ (blank 16 8).rasterFmt = 1#1 ∧
    regionInside (blank 16 8) .character (0#12).toNat (0#12).toNat ∧
    (∀ i b, 2 * i < regionWidth .character → b < regionHeight .character →
      Memory.read [(1, 5#8)] (pixelAddress ((0#12).toNat + 2 * i) ((0#12).toNat + b)) =
        rasterRead (blank 16 8) ((0#12).toNat + 2 * i) ((0#12).toNat + b)) := by
  refine ⟨by decide +kernel, rfl, by unfold regionInside; decide +kernel, ?_⟩
  intro i b _ _
  have h : 1 ≠ pixelAddress ((0#12).toNat + 2 * i) ((0#12).toNat + b) := by
    simp only [pixelAddress, BitVec.toNat_ofNat]
    omega
  rw [read_blank, Memory.read, sparseGet?, if_neg h, sparseGet?]
  rfl

/-- The first entry, and the last of a full dictionary. -/
theorem witness_LookupFindsTheFirstEqualBlock :
    (∀ s : State, s = { blankBuffered with dict := [zeroBlock, diagonal] } →
      s.status.blkV = true ∧ s.status.blkSpr = false ∧ 0 < 65536 ∧ s.dict[0]? = some (bufBlock s) ∧
      (∀ j, j < 0 → s.dict[j]? ≠ some (bufBlock s))) ∧
    (∀ s : State, s = { blankBuffered with dict := [diagonal, zeroBlock], dictCap := 2 } →
      s.status.blkV = true ∧ s.status.blkSpr = false ∧ 1 < 65536 ∧ s.dict[1]? = some (bufBlock s) ∧
      (∀ j, j < 1 → s.dict[j]? ≠ some (bufBlock s))) := by
  refine ⟨?_, ?_⟩
  · rintro s rfl
    decide +kernel
  · rintro s rfl
    decide +kernel

/-- An empty dictionary, and one with room for one entry. -/
theorem witness_LookupAppendsANewBlock :
    (blankBuffered.status.blkV = true ∧ blankBuffered.status.blkSpr = false ∧ bufBlock blankBuffered ∉ blankBuffered.dict ∧
      blankBuffered.dict.length ≠ blankBuffered.dictCap ∧ blankBuffered.dict.length < 65536) ∧
    (∀ s : State, s = { blankBuffered with dict := [diagonal], dictCap := 2 } →
      s.status.blkV = true ∧ s.status.blkSpr = false ∧ bufBlock s ∉ s.dict ∧ s.dict.length ≠ s.dictCap ∧
      s.dict.length < 65536) := by
  refine ⟨by decide +kernel, ?_⟩
  rintro s rfl
  decide +kernel

theorem witness_FullDictionaryRaisesCapacityError :
    ∀ s : State, s = { blankBuffered with dict := [diagonal], dictCap := 1 } →
      s.status.blkV = true ∧ s.status.blkSpr = false ∧ bufBlock s ∉ s.dict ∧ s.dict.length = s.dictCap := by
  rintro s rfl
  decide +kernel

/-- No block, and a sprite. -/
theorem witness_LookupWithoutACharacterRaisesSequenceError :
    (State.reset.status.blkV = false ∨ State.reset.status.blkSpr = true) ∧
    (∀ s : State, s = { State.reset with status := { Status.clear with blkV := true, blkSpr := true } } →
      s.status.blkV = false ∨ s.status.blkSpr = true) := by
  refine ⟨Or.inl rfl, ?_⟩
  rintro s rfl
  exact Or.inr rfl

theorem inv_blankBuffered : Inv blankBuffered := by
  apply inv_of_checks <;> decide +kernel

theorem inv_fullOfZero : Inv { blankBuffered with dict := [zeroBlock], emptyRec := some 0#16, dictCap := 1 } := by
  apply inv_of_checks <;> decide +kernel

theorem inv_built : Inv built := by
  apply inv_of_checks <;> decide +kernel

/-- A new block with room for it, and one that a full dictionary holds. -/
theorem witness_InsertionIsIdempotent :
    (Inv blankBuffered ∧ blankBuffered.status.blkV = true ∧ blankBuffered.status.blkSpr = false ∧
      (bufBlock blankBuffered ∈ blankBuffered.dict ∨ blankBuffered.dict.length < blankBuffered.dictCap)) ∧
    (∀ s : State, s = { blankBuffered with dict := [zeroBlock], emptyRec := some 0#16, dictCap := 1 } →
      Inv s ∧ s.status.blkV = true ∧ s.status.blkSpr = false ∧ (bufBlock s ∈ s.dict ∨ s.dict.length < s.dictCap)) := by
  refine ⟨⟨inv_blankBuffered, by decide +kernel⟩, ?_⟩
  rintro s rfl
  exact ⟨inv_fullOfZero, by decide +kernel⟩

/-- A written cell of each kind, and an unwritten one. -/
theorem witness_PromotionSwapsAndRelabels :
    Inv built ∧ built.emptyRec = some 1#16 ∧ (1#16 : Index) ≠ 0#16 ∧ sparseGet? built.cells 4 = none ∧
    sparseGet? built.cells 0 = some ⟨0#16, 1#8⟩ ∧ sparseGet? built.cells 1 = some ⟨1#16, 0#8⟩ ∧
    sparseGet? built.cells 2 = some ⟨2#16, 1#8⟩ ∧ (2#16 : Index) ≠ 0#16 ∧ (2#16 : Index) ≠ 1#16 :=
  ⟨inv_built, by decide +kernel⟩

theorem witness_PromotionWithNothingToMove :
    State.reset.emptyRec = none ∧ { built with emptyRec := some 0#16 }.emptyRec = some 0#16 := ⟨rfl, rfl⟩

/-- The last cell of a map that it fills, into an empty dictionary and into a full one that holds the block. -/
theorem witness_BuildCellWritesItsCell :
    (∀ s : State, s = { blank 16 8 with mapCap := 2 } →
      Inv s ∧ configOk s ∧ s.rasterFmt = 1#1 ∧ (1#12).toNat < mapWidth s ∧ (0#12).toNat < mapHeight s ∧
      (0#12).toNat * mapWidth s + (1#12).toNat < s.mapCap ∧
      (s.dict.length < s.dictCap ∨ bufBlock (encodeCell (1#12).toNat (0#12).toNat s) ∈ s.dict)) ∧
    (∀ s : State, s = { blank 16 8 with dict := [zeroBlock], emptyRec := some 0#16, dictCap := 1, mapCap := 2 } →
      Inv s ∧ configOk s ∧ s.rasterFmt = 1#1 ∧ (1#12).toNat < mapWidth s ∧ (0#12).toNat < mapHeight s ∧
      (0#12).toNat * mapWidth s + (1#12).toNat < s.mapCap ∧
      (s.dict.length < s.dictCap ∨ bufBlock (encodeCell (1#12).toNat (0#12).toNat s) ∈ s.dict)) := by
  refine ⟨?_, ?_⟩
  · rintro s rfl
    exact ⟨by apply inv_of_checks <;> decide +kernel, by unfold configOk; decide +kernel, by decide +kernel⟩
  · rintro s rfl
    exact ⟨by apply inv_of_checks <;> decide +kernel, by unfold configOk; decide +kernel, by decide +kernel⟩

/-- The first cell beyond the map, and a map one cell too small (V-CM-14, V-CM-15). -/
theorem witness_CellsBeyondTheMapRaiseCapacityError :
    ∀ s : State, s = { start 32 8 promo with mapCap := 3 } →
      configOk s ∧ s.rasterFmt = 1#1 ∧
      ((3#12).toNat < mapWidth s ∧ (0#12).toNat < mapHeight s ∧ s.mapCap ≤ (0#12).toNat * mapWidth s + (3#12).toNat) ∧
      s.mapCap < mapWidth s * mapHeight s := by
  rintro s rfl
  exact ⟨by unfold configOk; decide +kernel, by decide +kernel⟩

theorem witness_BuildCellIntoAFullDictionary :
    ∀ s : State, s = { blank 16 8 with dict := [diagonal], dictCap := 1, mapCap := 2 } →
      configOk s ∧ s.rasterFmt = 1#1 ∧ (1#12).toNat < mapWidth s ∧ (0#12).toNat < mapHeight s ∧
      (0#12).toNat * mapWidth s + (1#12).toNat < s.mapCap ∧ s.dict.length = s.dictCap ∧
      bufBlock (encodeCell (1#12).toNat (0#12).toNat s) ∉ s.dict := by
  rintro s rfl
  exact ⟨by unfold configOk; decide +kernel, by decide +kernel⟩

/-- Two cells with two blocks in a dictionary of two, and two equal cells in a dictionary of one. -/
theorem witness_BuildCharmapWritesEveryCell :
    ∀ s : State, ∀ blocks : List Block,
      (s = { dot with dictCap := 2, mapCap := 2 } ∧ blocks = [bufBlock (encodeCell 0 0 s), bufBlock (encodeCell 1 0 s)]) ∨
        (s = { blank 16 8 with dictCap := 1, mapCap := 2 } ∧ blocks = [zeroBlock]) →
      Inv s ∧ configOk s ∧ s.rasterFmt = 1#1 ∧ mapWidth s * mapHeight s ≤ s.mapCap ∧
        (∀ cx cy, cx < mapWidth s → cy < mapHeight s → bufBlock (encodeCell cx cy s) ∈ blocks) ∧
        blocks.length ≤ s.dictCap := by
  rintro s blocks (⟨rfl, rfl⟩ | ⟨rfl, rfl⟩) <;>
    refine ⟨by apply inv_of_checks <;> decide +kernel, by unfold configOk; decide +kernel, by decide +kernel,
      by decide +kernel, ?_, by decide +kernel⟩
  all_goals
    intro cx cy hx hy
    have hx : cx < 2 := hx
    have hy : cy < 1 := hy
    interval_cases cx <;> interval_cases cy <;> decide +kernel

/-- V-CM-11. -/
theorem witness_BuildCharmapOfNoCells :
    configOk (blank 7 8) ∧ (blank 7 8).rasterFmt = 1#1 ∧ mapWidth (blank 7 8) * mapHeight (blank 7 8) = 0 :=
  ⟨by unfold configOk; decide +kernel, by decide +kernel⟩

/-- The state that an operation which may raise leaves when it does not raise, and `d` when it does. -/
def doneOr (d : State) (a : Attempt Unit) : State :=
  match a with
  | .done _ t => t
  | .raised _ _ _ => d

/-- `dot` with room for one block: its second cell overflows. -/
theorem witness_BuildCharmapStopsAtTheOverflowingCell :
    ∀ s u : State, s = { dot with dictCap := 1, mapCap := 2 } →
      u = doneOr s (buildCells ((cellsInRasterOrder s).take 1) (dataClear s)) →
      configOk s ∧ s.rasterFmt = 1#1 ∧ mapWidth s * mapHeight s ≤ s.mapCap ∧ (cellsInRasterOrder s)[1]? = some (1, 0) ∧
      buildCells ((cellsInRasterOrder s).take 1) (dataClear s) = .done () u ∧ u.dict.length = u.dictCap ∧
      bufBlock (encodeCell 1 0 u) ∉ u.dict := by
  rintro s u rfl rfl
  exact ⟨by unfold configOk; decide +kernel, by decide +kernel⟩

/-- `CLEAR`, then `BUILD_CELL` for every cell. -/
def cellByCell (s : State) : Host.Outcome State Fault Refusal :=
  (cellsInRasterOrder s).foldl
    (fun o c => match o with
      | .next v => exec (.buildCell (BitVec.ofNat 12 c.1) (BitVec.ofNat 12 c.2)) v
      | .fault r => .fault r
      | .refused r => .refused r)
    (exec .clear s)

/-- An image of one cell, its map and its dictionary full. -/
theorem witness_BuildCharmapIsCellByCell :
    ∀ s : State, s = { blank 8 8 with dictCap := 1, mapCap := 1 } →
      s.status = Status.clear ∧ s.errCmd = 0#32 ∧ s.errCell = 0xFFFFFFFF#32 ∧ 0 < mapWidth s * mapHeight s ∧
      mapWidth s ≤ 4096 ∧ mapHeight s ≤ 4096 ∧ mapWidth s * mapHeight s ≤ s.mapCap ∧
      cellByCell s = .next (nextOr s (cellByCell s)) ∧ (nextOr s (cellByCell s)).status.fault = false ∧
      exec .finalize (nextOr s (cellByCell s)) = .next (nextOr s (exec .finalize (nextOr s (cellByCell s)))) := by
  rintro s rfl
  exact ⟨rfl, rfl, rfl, by decide +kernel, by decide +kernel, by decide +kernel, by decide +kernel,
    eq_next_of_answers _ (by decide +kernel), by decide +kernel, eq_next_of_answers _ (by decide +kernel)⟩

/-- The byte 7 of the last entry; the first entry beyond the count; the byte 8. -/
theorem witness_ReadDictAnswersTheByte :
    (built.dict[(2#16).toNat]? = some column ∧ column[(7#8).toNat]? = some 0x80#8) ∧
    built.dict.length ≤ (3#16).toNat ∧ 8 ≤ (8#8).toNat := by decide +kernel

/-- The last cell below the map's capacity; an unwritten one; the first one at the capacity. -/
theorem witness_ReadMapsAnswerTheCell :
    (sparseGet? { built with mapCap := 4 }.cells (3#16).toNat = some ⟨0#16, 1#8⟩ ∧
      (3#16).toNat < { built with mapCap := 4 }.mapCap) ∧
    sparseGet? built.cells (4#16).toNat = none ∧ { built with mapCap := 3 }.mapCap ≤ (3#16).toNat := by decide +kernel

/-- A cell and the last byte of the last entry of an image without a fault, and an image that a fault has aborted. -/
theorem witness_EmissionOfAValidImageIsWhatReadsAnswer :
    (imageValid { built with mapCap := 4 } ∧ sparseGet? { built with mapCap := 4 }.cells (3#16).toNat = some ⟨0#16, 1#8⟩ ∧
      (3#16).toNat < { built with mapCap := 4 }.mapCap ∧ (2#16).toNat < { built with mapCap := 4 }.dict.length ∧
      (7#8).toNat < 8) ∧
    ¬ imageValid (withFault built) := by
  unfold imageValid
  decide +kernel

/-- R192 on P2's map `[0,1,2,0]` with `OFFSET = 0x40`; nothing once a fault has aborted the image (R226). -/
theorem test_emission :
    emittedMapByte built 2 = some 0x42#8 ∧ emittedMapByte (withFault built) 2 = none := by decide +kernel

/-- The last byte of a character and of a sprite; no block; the first byte beyond each. -/
theorem witness_ReadBufAnswersTheByte :
    (blankBuffered.status.blkV = true ∧ ((7#8).toNat < 8 ∨ (blankBuffered.status.blkSpr = true ∧ (7#8).toNat < 64))) ∧
    (∀ s : State, s = { State.reset with status := { Status.clear with blkV := true, blkSpr := true } } →
      s.status.blkV = true ∧ ((63#8).toNat < 8 ∨ (s.status.blkSpr = true ∧ (63#8).toNat < 64))) ∧
    State.reset.status.blkV = false ∧ (blankBuffered.status.blkSpr = false ∧ 8 ≤ (8#8).toNat) ∧ 64 ≤ (64#8).toNat := by
  refine ⟨by decide +kernel, ?_, rfl, by decide +kernel, by decide⟩
  rintro s rfl
  decide

/-- A command that faults and one that completes. -/
theorem witness_FaultsAreRecordedAndLeaveTheResult :
    ((Instr.readBuf 0#8).wellFormed = true ∧ State.reset.status.fault = false ∧
      answers (exec (.readBuf 0#8) State.reset) (fun t => t.status.fault) = true) ∧
    (Instr.roleReset.wellFormed = true ∧ State.reset.status.fault = false ∧ Instr.roleReset ≠ .clear ∧
      answers (exec .roleReset State.reset) (fun t => !t.status.fault) = true) := by decide +kernel

theorem witness_EntriesKeepTheirIndices :
    Instr.lookupInsert ≠ .clear ∧ Instr.lookupInsert ≠ .promoteEmpty ∧ Instr.lookupInsert ≠ .finalize ∧
    Instr.lookupInsert ≠ .buildCharmap ∧
    exec .lookupInsert { blankBuffered with dict := [diagonal] } =
      .next (nextOr built (exec .lookupInsert { blankBuffered with dict := [diagonal] })) ∧
    { blankBuffered with dict := [diagonal] }.dict[0]? = some diagonal :=
  ⟨by decide, by decide, by decide, by decide, eq_next_of_answers _ (by decide +kernel), rfl⟩

theorem witness_TheWarningStandsUntilADataClear :
    Instr.finalize ≠ .clear ∧ Instr.finalize ≠ .buildCharmap ∧
    exec .finalize { built with status := { Status.clear with asw := true } } =
      .next (nextOr built (exec .finalize { built with status := { Status.clear with asw := true } })) ∧
    { built with status := { Status.clear with asw := true } }.status.asw = true :=
  ⟨by decide, by decide, eq_next_of_answers _ (by decide +kernel), rfl⟩

/-- `CLEAR` and the hardware reset. -/
theorem witness_OnlyClearAndResetLeaveTheFaultState :
    (∀ s : State, s = pending (.write .word 0x2C#8 0#32) (withFault built) →
      s.status.fault = true ∧ step s = .next (nextOr s (step s)) ∧ (nextOr s (step s)).status.fault = false) ∧
    (∀ s : State, s = pending .hardReset (withFault built) →
      s.status.fault = true ∧ step s = .next (nextOr s (step s)) ∧ (nextOr s (step s)).status.fault = false) := by
  refine ⟨?_, ?_⟩
  · rintro s rfl
    exact ⟨rfl, eq_next_of_answers _ (by decide +kernel), by decide +kernel⟩
  · rintro s rfl
    exact ⟨rfl, eq_next_of_answers _ (by decide +kernel), by decide +kernel⟩

/-- A step of the unit and a connection of an image. -/
theorem witness_OnlyTheHostChangesTheRaster :
    (∀ s : State, s = built.withFetchWord 32 0x60000000 → step s = .next (nextOr s (step s))) ∧
    (∀ s : State, s = pending (.connectRaster [(1, 5#8)]) built → step s = .next (nextOr s (step s))) := by
  refine ⟨?_, ?_⟩
  · rintro s rfl
    exact eq_next_of_answers _ (by decide +kernel)
  · rintro s rfl
    exact eq_next_of_answers _ (by decide +kernel)

theorem witness_EveryStepKeepsAGoodState :
    ∀ s : State, s = built.withFetchWord 32 0x60000000 → Inv s ∧ step s = .next (nextOr s (step s)) := by
  rintro s rfl
  exact ⟨by apply inv_of_checks <;> decide +kernel, eq_next_of_answers _ (by decide +kernel)⟩

end Sys2Proof.Tests
end

section
/-! The status word, the role registers and `MAP_DIM` as numbers, and the statements of spec/10_state.md about what they
read (R45, R46, R47, R54). -/

namespace Sys2Proof.Machine

theorem getLsbD_eq_of_div_mod {m i : Nat} {w : BitVec m} {b : Bool} (h : w.toNat / 2 ^ i % 2 = b.toNat) :
    w.getLsbD i = b := by
  rw [getLsbD_eq_decide, h]
  cases b <;> rfl

theorem extractLsb'_eq_of_div_mod {m lo len : Nat} {w : BitVec m} {v : BitVec len}
    (h : w.toNat / 2 ^ lo % 2 ^ len = v.toNat) : w.extractLsb' lo len = v :=
  BitVec.eq_of_toNat_eq (by rw [toNat_field, h])

/-- The weight of each flag of `STATUS` is the place that R45 gives it. -/
theorem toNat_statusWord (st : Status) :
    (statusWord st).toNat =
      st.fault.toNat + 2 ^ 4 * st.err.toNat + 2 ^ 8 * st.asw.toNat + 2 ^ 9 * st.ign.toNat + 2 ^ 10 * st.newEntry.toNat +
        2 ^ 11 * st.blkV.toNat + 2 ^ 12 * st.blkMc.toNat + 2 ^ 13 * st.blkSpr.toNat + 2 ^ 14 * st.blkBlank.toNat := by
  simp only [statusWord, BitVec.toNat_setWidth_of_le (show 1 + 1 + 1 + 1 + 1 + 1 + 1 + 4 + 3 + 1 ≤ 32 by decide),
    toNat_append_mul, BitVec.toNat_ofBool, BitVec.toNat_ofNat]
  omega

theorem toNat_roleValWord (f : RoleFile) :
    (roleValWord f).toNat =
      (f.bg.getD 0#8).toNat + 2 ^ 8 * (f.mc1.getD 0#8).toNat + 2 ^ 16 * (f.mc2.getD 0#8).toNat +
        2 ^ 24 * (f.uq.getD 0#8).toNat := by
  simp only [roleValWord, BitVec.toNat_setWidth_of_le (show 8 + 8 + 8 + 8 ≤ 32 by decide), toNat_append_mul]
  omega

theorem toNat_roleBoundWord (f : RoleFile) :
    (roleBoundWord f).toNat =
      f.bg.isSome.toNat + 2 * f.mc1.isSome.toNat + 2 ^ 2 * f.mc2.isSome.toNat + 2 ^ 3 * f.uq.isSome.toNat := by
  simp only [roleBoundWord, BitVec.toNat_setWidth_of_le (show 1 + 1 + 1 + 1 ≤ 32 by decide), toNat_append_mul,
    BitVec.toNat_ofBool]
  omega

/-- `MAP_DIM` holds both halves without loss: a dimension of 16 bits has fewer than `2 ^ 16` whole cells (R54). -/
theorem toNat_readReg_mapDim (s : State) : (readReg .mapDim s).toNat = mapWidth s + 2 ^ 16 * mapHeight s := by
  have hw : rasterWidth s < 2 ^ 16 := (s.rasterDim.extractLsb' 0 16).isLt
  have hh : rasterHeight s < 2 ^ 16 := (s.rasterDim.extractLsb' 16 16).isLt
  simp only [readReg, BitVec.toNat_setWidth_of_le (show 16 + 16 ≤ 32 by decide), toNat_append_mul, BitVec.toNat_ofNat,
    mapWidth, mapHeight]
  omega

/-- Settles O9: each field of `STATUS` is read off the number that the word is. -/
theorem statusReadsItsFlags : Obligations.StatusReadsItsFlags := by
  intro s
  have hword : readReg (regOfOffset 0x30#8) s = statusWord s.status := rfl
  have hval := toNat_statusWord s.status
  have herr := s.status.err.isLt
  have h0 := s.status.fault.toNat_le
  have h8 := s.status.asw.toNat_le
  have h9 := s.status.ign.toNat_le
  have h10 := s.status.newEntry.toNat_le
  have h11 := s.status.blkV.toNat_le
  have h12 := s.status.blkMc.toNat_le
  have h13 := s.status.blkSpr.toNat_le
  have h14 := s.status.blkBlank.toNat_le
  rw [hword]
  refine ⟨getLsbD_eq_of_div_mod ?_, extractLsb'_eq_of_div_mod ?_, extractLsb'_eq_of_div_mod ?_,
    getLsbD_eq_of_div_mod ?_, getLsbD_eq_of_div_mod ?_, getLsbD_eq_of_div_mod ?_, getLsbD_eq_of_div_mod ?_,
    getLsbD_eq_of_div_mod ?_, getLsbD_eq_of_div_mod ?_, getLsbD_eq_of_div_mod ?_, extractLsb'_eq_of_div_mod ?_⟩ <;> bv_omega

/-- Settles O10: each role's value and bound bit is read off the numbers that the two words are. -/
theorem roleRegistersReadTheRoleFile : Obligations.RoleRegistersReadTheRoleFile := by
  intro s
  have hvalues : readReg (regOfOffset 0x40#8) s = roleValWord s.roles := rfl
  have hbounds : readReg (regOfOffset 0x44#8) s = roleBoundWord s.roles := rfl
  have hval := toNat_roleValWord s.roles
  have hbound := toNat_roleBoundWord s.roles
  have hbg := (s.roles.bg.getD 0#8).isLt
  have hmc1 := (s.roles.mc1.getD 0#8).isLt
  have hmc2 := (s.roles.mc2.getD 0#8).isLt
  have huq := (s.roles.uq.getD 0#8).isLt
  have b0 := s.roles.bg.isSome.toNat_le
  have b1 := s.roles.mc1.isSome.toNat_le
  have b2 := s.roles.mc2.isSome.toNat_le
  have b3 := s.roles.uq.isSome.toNat_le
  rw [hvalues, hbounds]
  refine ⟨extractLsb'_eq_of_div_mod ?_, extractLsb'_eq_of_div_mod ?_, extractLsb'_eq_of_div_mod ?_,
    extractLsb'_eq_of_div_mod ?_, getLsbD_eq_of_div_mod ?_, getLsbD_eq_of_div_mod ?_, getLsbD_eq_of_div_mod ?_,
    getLsbD_eq_of_div_mod ?_, extractLsb'_eq_of_div_mod ?_⟩ <;> bv_omega

/-- Settles O11: the write steps to the state with the new `RASTER_DIM`, and there `MAP_DIM` is its whole cells. -/
theorem mapDimFollowsRasterDim : Obligations.MapDimFollowsRasterDim := by
  intro s v rest hq
  refine ⟨{ s with queue := rest, rasterDim := v }, ?_, rfl, ?_⟩
  · rw [step_event s _ rest hq]
    rfl
  · have hreg : regOfOffset 0x50#8 = .mapDim := rfl
    have hw : (v.extractLsb' 0 16).toNat < 2 ^ 16 := (v.extractLsb' 0 16).isLt
    have hh : (v.extractLsb' 16 16).toNat < 2 ^ 16 := (v.extractLsb' 16 16).isLt
    rw [hreg, toNat_field _ 0 16, toNat_field _ 16 16, toNat_readReg_mapDim]
    simp only [mapWidth, mapHeight, rasterWidth, rasterHeight]
    omega

end Sys2Proof.Machine
end

section
/-! What a command keeps, once for every property of the state: a command keeps what its body keeps and a fault keeps
(R225). -/

namespace Sys2Proof.Machine

/-- The state that an operation leaves meets `P` whether it finishes or raises, and what it raises is a code that the unit
raises (R222). -/
def Attempt.Keeps {α : Type} (P : State → Prop) : Attempt α → Prop
  | .done _ t => P t
  | .raised code _ t => code ≠ .incompleteData ∧ P t

theorem Attempt.Keeps.imp {α : Type} {P Q : State → Prop} {a : Attempt α} (h : a.Keeps P) (hPQ : ∀ t, P t → Q t) :
    a.Keeps Q := by
  cases a with
  | done v t => exact hPQ t h
  | raised code cell t => exact ⟨h.1, hPQ t h.2⟩

/-- A fault raised with a code that the unit raises keeps `P`. -/
def KeptByFaults (P : State → Prop) : Prop :=
  ∀ (w : Word) (code : FaultCode) (cell : Word) (t : State), code ≠ .incompleteData → P t → P (raiseFault w code cell t)

@[simp] theorem configCheck_code (s : State) : (configCheck s).code = .config := rfl
@[simp] theorem widthCheck_code (s : State) (asks : Bool) : (widthCheck s asks).code = .config := rfl
@[simp] theorem formatCheck_code (s : State) : (formatCheck s).code = .format := rfl
@[simp] theorem regionCheck_code (s : State) (ctx : Context) (x y : Nat) : (regionCheck s ctx x y).code = .range := rfl
@[simp] theorem cellCheck_code (s : State) (cx cy : Nat) : (cellCheck s cx cy).code = .range := rfl
@[simp] theorem mapIndexCheck_code (s : State) (k : Nat) : (mapIndexCheck s k).code = .capacity := rfl
@[simp] theorem mapSizeCheck_code (s : State) : (mapSizeCheck s).code = .capacity := rfl
@[simp] theorem sequenceCheck_code (s : State) : (sequenceCheck s).code = .sequence := rfl
@[simp] theorem wselCheck_code (w : WidthSel) : (wselCheck w).code = .illegalCommand := rfl
@[simp] theorem valueCheck_code (holds : Bool) : (valueCheck holds).code = .range := rfl

theorem runCommand_keeps {P : State → Prop} {w : Word} {cs : List Check} {s t : State} {body : Attempt Unit}
    (h : runCommand w cs s body = .next t) (hfault : KeptByFaults P) (hcodes : ∀ c ∈ cs, c.code ≠ .incompleteData)
    (hs : P s) (hbody : (∀ c ∈ cs, c.fails = false) → body.Keeps P) : P t := by
  rcases runCommand_cases w cs s body with
    ⟨c, hc, -, hrun⟩ | ⟨hpass, ⟨u, t', rfl, hrun⟩ | ⟨code, cell, t', rfl, hrun⟩⟩
  · cases hrun.symm.trans h
    exact hfault w c.code c.cell s (hcodes c hc) hs
  · cases hrun.symm.trans h
    exact hbody hpass
  · cases hrun.symm.trans h
    obtain ⟨hcode, ht⟩ := hbody hpass
    exact hfault w code cell t' hcode ht

/-- A `READ` writes `RESULT` or raises (R202). -/
theorem runRead_keeps {P : State → Prop} {w : Word} {v : Option Word} {s t : State} (h : runRead w v s = .next t)
    (hfault : KeptByFaults P) (hs : P s) (hresult : ∀ r, P (setResult r s)) : P t :=
  runCommand_keeps h hfault (by simp) hs fun _ => hresult _

/-- `LOOKUP_INSERT` writes `RESULT` after an insertion, or raises (R160). -/
theorem execLookupInsert_keeps {P : State → Prop} {s t : State} (h : execLookupInsert s = .next t)
    (hfault : KeptByFaults P) (hs : P s) (hresult : ∀ r u, P u → P (setResult r u))
    (hinsert : (lookupOrInsert (bufBlock s) noCell s).Keeps P) : P t := by
  refine runCommand_keeps h hfault (by simp) hs fun _ => ?_
  cases hl : lookupOrInsert (bufBlock s) noCell s with
  | done v u => exact hresult _ u (by rwa [hl] at hinsert)
  | raised code cell u => rwa [hl] at hinsert

/-- `BUILD_CELL` writes `RESULT` after building a cell that the map has room for, or raises (R181). -/
theorem execBuildCell_keeps {P : State → Prop} {cx cy : BitVec 12} {s t : State} (h : execBuildCell cx cy s = .next t)
    (hfault : KeptByFaults P) (hs : P s) (hresult : ∀ r u, P u → P (setResult r u))
    (hcell : cellIndex s cx.toNat cy.toNat < s.mapCap →
      (cellStep cx.toNat cy.toNat (cellIndex s cx.toNat cy.toNat) s).Keeps P) : P t := by
  refine runCommand_keeps h hfault (by simp) hs fun hpass => ?_
  have hk : ¬ s.mapCap ≤ cellIndex s cx.toNat cy.toNat := by
    rw [← mapIndexCheck_fails, Bool.not_eq_true]
    exact hpass _ (by simp)
  have hkeeps := hcell (Nat.lt_of_not_le hk)
  cases hc : cellStep cx.toNat cy.toNat (cellIndex s cx.toNat cy.toNat) s with
  | done v u => exact hresult _ u (by rwa [hc] at hkeeps)
  | raised code cell u => rwa [hc] at hkeeps

end Sys2Proof.Machine
end

section
/-! What insertion and the cell sequencer leave: the registers, the raster and the capacities, and the entries that the
dictionary already has. -/

namespace Sys2Proof.Machine

theorem SameOutsideImage.refl (s : State) : SameOutsideImage s s := by constructor <;> rfl

theorem SameOutsideImage.trans {s t u : State} (h : SameOutsideImage s t) (k : SameOutsideImage t u) :
    SameOutsideImage s u where
  ctrl := k.ctrl.trans h.ctrl
  cfgBg := k.cfgBg.trans h.cfgBg
  cfgFg := k.cfgFg.trans h.cfgFg
  cfgMc := k.cfgMc.trans h.cfgMc
  cfgHint := k.cfgHint.trans h.cfgHint
  cfgOffset := k.cfgOffset.trans h.cfgOffset
  cfgAttr := k.cfgAttr.trans h.cfgAttr
  cfgSprPad := k.cfgSprPad.trans h.cfgSprPad
  rasterDim := k.rasterDim.trans h.rasterDim
  rasterFmt := k.rasterFmt.trans h.rasterFmt
  dictCap := k.dictCap.trans h.dictCap
  mapCap := k.mapCap.trans h.mapCap
  raster := k.raster.trans h.raster
  queue := k.queue.trans h.queue
  busData := k.busData.trans h.busData

/-- The geometry of the map follows from `RASTER_DIM` (R54, R180). -/
theorem SameOutsideImage.cellIndex_eq {s t : State} (h : SameOutsideImage s t) (cx cy : Nat) :
    cellIndex t cx cy = cellIndex s cx cy := by
  simp only [cellIndex, mapWidth, rasterWidth, h.rasterDim]

/-- An insertion leaves the registers, and only adds to the end of the dictionary (R160; R50, invariant 2). -/
theorem lookupOrInsert_keeps_outside (b : Block) (cell : Word) (s : State) :
    (lookupOrInsert b cell s).Keeps fun t => SameOutsideImage s t ∧ s.dict <+: t.dict := by
  rcases lookupOrInsert_cases b cell s with ⟨i, -, h⟩ | ⟨-, -, h⟩ | ⟨-, -, h⟩ <;> rw [h]
  · exact ⟨by constructor <;> rfl, List.prefix_rfl⟩
  · exact ⟨by decide, .refl s, List.prefix_rfl⟩
  · exact ⟨by constructor <;> rfl, List.prefix_append ..⟩

/-- Building a cell of the map does so too (R182). -/
theorem cellStep_keeps_outside (cx cy k : Nat) (s : State) :
    (cellStep cx cy k s).Keeps fun t => SameOutsideImage s t ∧ s.dict <+: t.dict := by
  have hencode : SameOutsideImage s (encodeCell cx cy s) := by constructor <;> rfl
  have hlookup := lookupOrInsert_keeps_outside (bufBlock (encodeCell cx cy s)) (BitVec.ofNat 32 k) (encodeCell cx cy s)
  rcases cellStep_cases cx cy k s with ⟨code, cell, t, hl, h⟩ | ⟨v, t, a, hl, h⟩ <;> rw [hl] at hlookup <;> rw [h]
  · obtain ⟨hcode, hsame, hdict⟩ := hlookup
    exact ⟨hcode, hencode.trans hsame, hdict⟩
  · obtain ⟨hsame, hdict⟩ := hlookup
    exact ⟨(hencode.trans hsame).trans (by constructor <;> rfl), hdict⟩

theorem getElem?_of_prefix {α : Type} {l m : List α} (h : l <+: m) {n : Nat} {a : α} (ha : l[n]? = some a) :
    m[n]? = some a := by
  obtain ⟨rest, rfl⟩ := h
  obtain ⟨hn, -⟩ := List.getElem?_eq_some_iff.1 ha
  rwa [List.getElem?_append_left hn]

/-- Every command but the data clears and the promotions only adds to the end of the dictionary (R50, invariant 2). -/
theorem exec_dict_prefix (i : Instr) (s t : State) (hclear : i ≠ .clear) (hpromote : i ≠ .promoteEmpty)
    (hfinalize : i ≠ .finalize) (hcharmap : i ≠ .buildCharmap) (h : exec i s = .next t) : s.dict <+: t.dict := by
  have hfault : KeptByFaults fun t => s.dict <+: t.dict := fun _ _ _ _ _ ht => ht
  have hs : s.dict <+: s.dict := List.prefix_rfl
  cases i
  all_goals simp only [exec] at h
  case clear => exact absurd rfl hclear
  case promoteEmpty => exact absurd rfl hpromote
  case finalize => exact absurd rfl hfinalize
  case buildCharmap => exact absurd rfl hcharmap
  case roleReset => exact runCommand_keeps h hfault (by simp) hs fun _ => hs
  case resolve ctx width pix => exact runCommand_keeps h hfault (by simp) hs fun _ => hs
  case detect ctx x y => exact runCommand_keeps h hfault (by simp) hs fun _ => hs
  case encode ctx wsel x y => exact runCommand_keeps h hfault (by simp) hs fun _ => hs
  case lookupInsert =>
    exact execLookupInsert_keeps h hfault hs (fun _ _ hu => hu)
      ((lookupOrInsert_keeps_outside ..).imp fun _ ⟨_, hdict⟩ => hdict)
  case buildCell cx cy =>
    exact execBuildCell_keeps h hfault hs (fun _ _ hu => hu) fun _ =>
      (cellStep_keeps_outside ..).imp fun _ ⟨_, hdict⟩ => hdict
  case readDict idx byte => exact runRead_keeps h hfault hs fun _ => hs
  case readMap idx => exact runRead_keeps h hfault hs fun _ => hs
  case readCmap idx => exact runRead_keeps h hfault hs fun _ => hs
  case readBuf byte => exact runRead_keeps h hfault hs fun _ => hs

/-- Settles O54: an entry stays where it is in a dictionary that only grows at its end. -/
theorem entriesKeepTheirIndices : Obligations.EntriesKeepTheirIndices := by
  intro i s t n b hclear hpromote hfinalize hcharmap h hb
  exact getElem?_of_prefix (exec_dict_prefix i s t hclear hpromote hfinalize hcharmap h) hb

end Sys2Proof.Machine
end

section
/-! Every named update of the state keeps a good state good. -/

namespace Sys2Proof.Machine

/-- `s` with every field that `Inv` does not look at as after reset. -/
def invView (s : State) : State :=
  { State.reset with
    dict := s.dict, emptyRec := s.emptyRec, cells := s.cells, buf := s.buf, raster := s.raster, errCmd := s.errCmd,
    errCell := s.errCell, dictCap := s.dictCap, mapCap := s.mapCap,
    status := { s.status with asw := false, newEntry := false } }

theorem inv_invView (s : State) : Inv (invView s) ↔ Inv s :=
  ⟨fun ⟨caps, dict, emptyRec, cells, fault, block, raster⟩ => ⟨caps, dict, emptyRec, cells, fault, block, raster⟩,
    fun ⟨caps, dict, emptyRec, cells, fault, block, raster⟩ => ⟨caps, dict, emptyRec, cells, fault, block, raster⟩⟩

/-- An update of fields that `Inv` does not look at keeps it. -/
theorem Inv.of_invView_eq {s t : State} (hs : Inv s) (h : invView t = invView s) : Inv t :=
  (inv_invView t).1 (h ▸ (inv_invView s).2 hs)

variable {s : State}

theorem inv_setResult (hs : Inv s) (v : Word) : Inv (setResult v s) := hs.of_invView_eq rfl

theorem inv_writeReg (hs : Inv s) (r : Reg) (v : Word) : Inv (writeReg r v s) :=
  hs.of_invView_eq (by cases r <;> rfl)

/-- Fault entry records a code that the unit raises (R225). -/
theorem inv_raiseFault : KeptByFaults Inv := fun _ code _ _ hcode ht =>
  ⟨ht.caps, ht.dict, ht.emptyRec, ht.cells, ⟨code, hcode, rfl⟩, ht.block, ht.raster⟩

/-- The fault state may say that a command was ignored (R227). -/
theorem inv_ignoreCommand (hs : Inv s) (hf : s.status.fault = true) : Inv (ignoreCommand s) := by
  have hfault := hs.fault
  rw [faultLegal, if_pos hf] at hfault
  have hignored : faultLegal (ignoreCommand s) := (if_pos hf).mpr hfault
  exact ⟨hs.caps, hs.dict, hs.emptyRec, hs.cells, hignored, hs.block, hs.raster⟩

/-- A data clear leaves no entry, no cell and no block (R200). -/
theorem inv_dataClear (hs : Inv s) : Inv (dataClear s) :=
  ⟨hs.caps, ⟨Nat.zero_le _, List.nodup_nil⟩, List.not_mem_nil, ⟨rfl, fun _ hc => absurd hc List.not_mem_nil⟩,
    hs.fault, ⟨rfl, rfl, rfl⟩, hs.raster⟩

theorem inv_clearBody (hs : Inv s) : Inv (clearBody s) :=
  have h := inv_dataClear hs
  ⟨h.caps, h.dict, h.emptyRec, h.cells, ⟨rfl, rfl, rfl, rfl⟩, h.block, h.raster⟩

/-- The hardware reset leaves the unit's capacities and the host's raster (R250). -/
theorem inv_hardReset (hs : Inv s) : Inv (hardReset s) :=
  ⟨hs.caps, ⟨Nat.zero_le _, List.nodup_nil⟩, List.not_mem_nil, ⟨rfl, fun _ hc => absurd hc List.not_mem_nil⟩,
    ⟨rfl, rfl, rfl, rfl⟩, ⟨rfl, rfl, rfl⟩, hs.raster⟩

/-- `BLK_BLANK` is written from the very bytes that the buffer then holds (R132, R139). -/
theorem inv_encodeBlock (hs : Inv s) (x0 y0 : Nat) (ctx : Context) (width : PixelWidth) :
    Inv (encodeBlock x0 y0 ctx width s) := by
  have hctx : bufferedContext (encodeBlock x0 y0 ctx width s) = ctx := by cases ctx <;> rfl
  have hblock : blockLegal (encodeBlock x0 y0 ctx width s) := by
    have hbuffered : (encodeBlock x0 y0 ctx width s).status.blkV = true := rfl
    rw [blockLegal, if_pos hbuffered, hctx]
    rfl
  exact ⟨hs.caps, hs.dict, hs.emptyRec, hs.cells, hs.fault, hblock, hs.raster⟩

/-- `EMPTY_REC` after an insertion: the zero block is recorded as it is appended (R163). -/
theorem emptyRecLegal_appendBlock (hs : Inv s) (b : Block) (hlen : s.dict.length < 65536) :
    emptyRecLegal (appendBlock b s) := by
  have hrec := hs.emptyRec
  unfold emptyRecLegal at hrec ⊢
  simp only [appendBlock_emptyRec, appendBlock_dict]
  cases he : s.emptyRec with
  | none =>
    rw [he] at hrec
    by_cases hb : b = zeroBlock
    · simp [hb, Nat.mod_eq_of_lt hlen]
    · simpa [hb, Ne.symm hb] using hrec
  | some e =>
    rw [he] at hrec
    simpa using getElem?_of_prefix (List.prefix_append ..) hrec

/-- Room in the dictionary, and a block that it does not have yet (R49; R50, invariant 1). -/
theorem inv_appendBlock (hs : Inv s) {b : Block} (hb : b ∉ s.dict) (hroom : s.dict.length ≠ s.dictCap) :
    Inv (appendBlock b s) := by
  obtain ⟨hle, hnodup⟩ := hs.dict
  obtain ⟨-, hcap, -, -⟩ := hs.caps
  obtain ⟨hsorted, hcells⟩ := hs.cells
  refine ⟨hs.caps, ⟨?_, ?_⟩, emptyRecLegal_appendBlock hs b (by omega), ⟨hsorted, fun c hc => ?_⟩, hs.fault, hs.block,
    hs.raster⟩
  · simp only [appendBlock_dict, appendBlock_dictCap, List.length_append, List.length_singleton]
    omega
  · simpa only [appendBlock_dict, List.concat_eq_append] using hnodup.concat hb
  · obtain ⟨hk, hidx⟩ := hcells c hc
    exact ⟨hk, by simp only [appendBlock_dict, List.length_append]; omega⟩

/-- A cell below the map's capacity that names an entry (R52). -/
theorem inv_writeCell (hs : Inv s) {k : Nat} {c : MapCell} (hk : k < s.mapCap) (hidx : c.idx.toNat < s.dict.length) :
    Inv (writeCell k c s) := by
  obtain ⟨hsorted, hcells⟩ := hs.cells
  refine ⟨hs.caps, hs.dict, hs.emptyRec, ⟨sparseSorted_set _ _ _ hsorted, fun d hd => ?_⟩, hs.fault, hs.block, hs.raster⟩
  rcases mem_sparseSet s.cells k c d hd with rfl | hd
  · exact ⟨hk, hidx⟩
  · exact hcells d hd

/-- The promotion moves entries about and loses none. -/
theorem swapEntries_perm (d : List Block) (e : Nat) (he : e < d.length) : (swapEntries d e).Perm d := by
  have h0 : 0 < d.length := by omega
  simp only [swapEntries, List.getElem?_eq_getElem h0, List.getElem?_eq_getElem he]
  exact List.set_set_perm h0 he

theorem relabel_lt {e v : Index} {n : Nat} (he : e.toNat < n) (hv : v.toNat < n) : (relabel e v).toNat < n := by
  unfold relabel
  split
  · exact he
  · split
    · exact Nat.zero_lt_of_lt he
    · exact hv

/-- The promotion of an entry that is there: the same entries, every cell naming one of them, the zero block at 0
(R166). -/
theorem inv_moveEmptyToFront (hs : Inv s) {e : Index} (he : s.emptyRec = some e) (h0 : e ≠ 0#16) :
    Inv (moveEmptyToFront e s) := by
  have hzero := hs.emptyRec
  rw [emptyRecLegal, he] at hzero
  have hlt : e.toNat < s.dict.length := (List.getElem?_eq_some_iff.1 hzero).1
  have hlen := swapEntries_length s.dict e.toNat
  obtain ⟨hle, hnodup⟩ := hs.dict
  obtain ⟨hsorted, hcells⟩ := hs.cells
  have hne : e.toNat ≠ 0 := fun h => h0 (BitVec.eq_of_toNat_eq h)
  refine ⟨hs.caps, ⟨hlen.trans_le hle, (swapEntries_perm _ _ hlt).nodup_iff.2 hnodup⟩,
    (swapEntries_getElem? _ _ hlt hne).1.trans hzero,
    ⟨sparseSorted_map s.cells (fun c => { c with idx := relabel e c.idx }) hsorted, fun c hc => ?_⟩, hs.fault,
    hs.block, hs.raster⟩
  obtain ⟨d, hd, rfl⟩ := List.mem_map.1 hc
  obtain ⟨hk, hidx⟩ := hcells d hd
  exact ⟨hk, (relabel_lt hlt hidx).trans_eq hlen.symm⟩

theorem inv_promoteEmpty (hs : Inv s) : Inv (promoteEmpty s) := by
  rcases promoteEmpty_cases s with ⟨e, he, h0, h⟩ | ⟨-, h⟩ <;> rw [h]
  · exact inv_setResult (inv_moveEmptyToFront hs he h0) _
  · exact inv_setResult hs _

theorem inv_finalizeImage (hs : Inv s) : Inv (finalizeImage s) := (inv_promoteEmpty hs).of_invView_eq rfl

end Sys2Proof.Machine
end

section
/-! Every command, and then every step, keeps a good state good. -/

namespace Sys2Proof.Machine

variable {s : State}

theorem lookupOrInsert_keeps_inv (hs : Inv s) (b : Block) (cell : Word) : (lookupOrInsert b cell s).Keeps Inv := by
  rcases lookupOrInsert_cases b cell s with ⟨i, -, h⟩ | ⟨-, -, h⟩ | ⟨hb, hroom, h⟩ <;> rw [h]
  · exact hs.of_invView_eq rfl
  · exact ⟨by decide, hs⟩
  · exact inv_appendBlock hs hb hroom

/-- The index that an insertion answers names an entry (R160). -/
theorem lookupOrInsert_index_lt {b : Block} {cell : Word} {v : Index × Bool} {t : State}
    (h : lookupOrInsert b cell s = .done v t) : v.1.toNat < t.dict.length := by
  rcases lookupOrInsert_cases b cell s with ⟨i, hi, hl⟩ | ⟨-, -, hl⟩ | ⟨-, -, hl⟩ <;> cases hl.symm.trans h
  · have hlt : i < s.dict.length := (List.getElem?_eq_some_iff.1 (findBlock_some b s.dict i hi).1).1
    exact (BitVec.toNat_ofNat i 16).trans_le (Nat.mod_le ..) |>.trans_lt hlt
  · simp only [appendBlock_dict, List.length_append, List.length_singleton, BitVec.toNat_ofNat]
    exact Nat.lt_succ_of_le (Nat.mod_le ..)

theorem cellStep_keeps_inv (hs : Inv s) (cx cy : Nat) {k : Nat} (hk : k < s.mapCap) :
    (cellStep cx cy k s).Keeps Inv := by
  have hencode : Inv (encodeCell cx cy s) := inv_encodeBlock hs ..
  have hinv := lookupOrInsert_keeps_inv hencode (bufBlock (encodeCell cx cy s)) (BitVec.ofNat 32 k)
  have hout := lookupOrInsert_keeps_outside (bufBlock (encodeCell cx cy s)) (BitVec.ofNat 32 k) (encodeCell cx cy s)
  rcases cellStep_cases cx cy k s with ⟨code, cell, t, hl, h⟩ | ⟨v, t, a, hl, h⟩ <;> rw [hl] at hinv hout <;> rw [h]
  · exact hinv
  · obtain ⟨hsame, -⟩ := hout
    exact inv_writeCell hinv (hk.trans_eq hsame.mapCap.symm) (lookupOrInsert_index_lt hl)

/-- The build cursor keeps a good state good while the map holds every cell of its list (R188). -/
theorem buildCells_keeps_inv (cells : List (Nat × Nat)) (hs : Inv s)
    (hfit : ∀ c ∈ cells, cellIndex s c.1 c.2 < s.mapCap) : (buildCells cells s).Keeps Inv := by
  induction cells generalizing s with
  | nil => exact hs
  | cons c rest ih =>
    obtain ⟨cx, cy⟩ := c
    have hinv := cellStep_keeps_inv hs cx cy (hfit (cx, cy) List.mem_cons_self)
    have hout := cellStep_keeps_outside cx cy (cellIndex s cx cy) s
    rw [buildCells_cons]
    cases hc : cellStep cx cy (cellIndex s cx cy) s with
    | raised code cell t => rw [hc] at hinv; exact hinv
    | done v t =>
      rw [hc] at hinv hout
      obtain ⟨hsame, -⟩ := hout
      refine ih hinv fun d hd => ?_
      rw [hsame.cellIndex_eq, hsame.mapCap]
      exact hfit d (List.mem_cons_of_mem _ hd)

/-- A map that holds as many cells as the raster has holds each of them (R180, R188). -/
theorem cellIndex_lt_mapCap (hfit : mapWidth s * mapHeight s ≤ s.mapCap) {cx cy : Nat} (hx : cx < mapWidth s)
    (hy : cy < mapHeight s) : cellIndex s cx cy < s.mapCap :=
  calc cy * mapWidth s + cx
    _ < (cy + 1) * mapWidth s := by rw [Nat.succ_mul]; omega
    _ ≤ mapHeight s * mapWidth s := Nat.mul_le_mul_right _ hy
    _ = mapWidth s * mapHeight s := Nat.mul_comm ..
    _ ≤ s.mapCap := hfit

theorem execBuildCharmap_keeps_inv (hs : Inv s) {t : State} (h : execBuildCharmap s = .next t) : Inv t := by
  refine runCommand_keeps h inv_raiseFault (by simp) hs fun hpass => ?_
  have hfit : ¬ s.mapCap < mapWidth s * mapHeight s := by
    rw [← mapSizeCheck_fails, Bool.not_eq_true]
    exact hpass _ (by simp)
  have hbuild := buildCells_keeps_inv (cellsInRasterOrder s) (inv_dataClear hs) fun c hc =>
    have ⟨hx, hy⟩ := (mem_cellsInRasterOrder s c.1 c.2).1 hc
    cellIndex_lt_mapCap (Nat.le_of_not_lt hfit) hx hy
  cases hb : buildCells (cellsInRasterOrder s) (dataClear s) with
  | done u t => rw [hb] at hbuild; exact inv_finalizeImage hbuild
  | raised code cell t => rw [hb] at hbuild; exact hbuild

theorem exec_keeps_inv (hs : Inv s) (i : Instr) {t : State} (h : exec i s = .next t) : Inv t := by
  cases i
  all_goals simp only [exec] at h
  case clear => exact runCommand_keeps h inv_raiseFault (by simp) hs fun _ => inv_clearBody hs
  case roleReset => exact runCommand_keeps h inv_raiseFault (by simp) hs fun _ => hs.of_invView_eq rfl
  case resolve ctx width pix => exact runCommand_keeps h inv_raiseFault (by simp) hs fun _ => hs.of_invView_eq rfl
  case detect ctx x y => exact runCommand_keeps h inv_raiseFault (by simp) hs fun _ => hs.of_invView_eq rfl
  case encode ctx wsel x y =>
    exact runCommand_keeps h inv_raiseFault (by simp) hs fun _ => (inv_encodeBlock hs ..).of_invView_eq rfl
  case lookupInsert =>
    exact execLookupInsert_keeps h inv_raiseFault hs (fun _ _ hu => inv_setResult hu _)
      (lookupOrInsert_keeps_inv hs ..)
  case promoteEmpty => exact runCommand_keeps h inv_raiseFault (by simp) hs fun _ => inv_promoteEmpty hs
  case buildCell cx cy =>
    exact execBuildCell_keeps h inv_raiseFault hs (fun _ _ hu => inv_setResult hu _) fun hk =>
      cellStep_keeps_inv hs _ _ hk
  case buildCharmap => exact execBuildCharmap_keeps_inv hs h
  case finalize => exact runCommand_keeps h inv_raiseFault (by simp) hs fun _ => inv_finalizeImage hs
  case readDict idx byte => exact runRead_keeps h inv_raiseFault hs (inv_setResult hs)
  case readMap idx => exact runRead_keeps h inv_raiseFault hs (inv_setResult hs)
  case readCmap idx => exact runRead_keeps h inv_raiseFault hs (inv_setResult hs)
  case readBuf byte => exact runRead_keeps h inv_raiseFault hs (inv_setResult hs)

theorem issue_keeps_inv (hs : Inv s) {w : Word} {t : State} (h : issue w s = .next t) : Inv t := by
  rcases issue_cases w s with ⟨-, -, hi⟩ | ⟨hf, -, hi⟩ | ⟨-, i, -, hi⟩ | ⟨-, r, -, hi⟩ <;> rw [hi] at h
  · exact exec_keeps_inv hs .clear h
  · cases h
    exact inv_ignoreCommand hs hf
  · exact exec_keeps_inv hs i h
  · cases h
    exact inv_raiseFault w .illegalCommand noCell s (by decide) hs

/-- Settles O60, by what the next event from outside is. -/
theorem everyStepKeepsAGoodState : Obligations.EveryStepKeepsAGoodState := by
  intro s t hs h
  rcases step_next_cases s t h with ⟨-, rfl⟩ | ⟨e, rest, -, hevent⟩
  · exact hs
  · have hpop : Inv { s with queue := rest } := hs.of_invView_eq rfl
    rcases hevent with
      ⟨off, -, rfl⟩ | ⟨off, v, -, -, rfl⟩ | ⟨off, v, -, -, hissue⟩ | ⟨pixels, -, haddr, rfl⟩ | ⟨-, rfl⟩
    · exact hpop.of_invView_eq rfl
    · exact inv_writeReg hpop ..
    · exact issue_keeps_inv hpop hissue
    · exact ⟨hs.caps, hs.dict, hs.emptyRec, hs.cells, hs.fault, hs.block, Memory.ofCells_wf pixels haddr⟩
    · exact inv_hardReset hpop

end Sys2Proof.Machine
end

section
/-! The statements of spec/20_memory.md: what a bus access that R75 leaves out answers, what the raster port reads after the
host has connected an image (R71, R252), and that nothing but the host changes the raster (R72). -/

namespace Sys2Proof.Machine

/-! ### Bus accesses (R75) -/

theorem checkedAccess_narrow {size : AccessSize} (hsize : size ≠ .word) (off : Byte)
    (o : Host.Outcome State Fault Refusal) : checkedAccess size off o = .refused (.narrowAccess size) :=
  if_pos hsize

theorem checkedAccess_unaligned {off : Byte} (hoff : off.toNat % 4 ≠ 0) (o : Host.Outcome State Fault Refusal) :
    checkedAccess .word off o = .refused (.unalignedAccess off) :=
  if_pos hoff

/-- A bus access of either kind goes through the check of its width and its offset. -/
theorem step_access {s : State} {size : AccessSize} {off : Byte} {v : Word} {rest : List HostEvent}
    (hq : s.queue = .read size off :: rest ∨ s.queue = .write size off v :: rest) :
    ∃ o, step s = checkedAccess size off o := by
  rcases hq with hread | hwrite
  · exact ⟨_, step_event s _ rest hread⟩
  · exact ⟨_, step_event s _ rest hwrite⟩

/-- Settles O13: the check of R75 answers before the access is made. -/
theorem otherAccessesAreRefused : Obligations.OtherAccessesAreRefused := by
  intro s size off v rest hq
  obtain ⟨o, hstep⟩ := step_access hq
  rw [hstep]
  refine ⟨fun hsize => checkedAccess_narrow hsize off o, ?_⟩
  rintro rfl hoff
  exact checkedAccess_unaligned hoff o

/-! ### The raster port (R71, R252) -/

theorem Memory.ofCells_concat (pixels : List Host.Cell) (c : Host.Cell) :
    Memory.ofCells (pixels ++ [c]) = Memory.write (Memory.ofCells pixels) c.1 c.2 :=
  List.foldl_concat ..

/-- An image that lists no pixel twice is read back as it was listed. -/
theorem Memory.read_ofCells {pixels : List Host.Cell} (hnodup : (pixels.map Prod.fst).Nodup) {a : Nat} {b : Byte}
    (hmem : (a, b) ∈ pixels) : Memory.read (Memory.ofCells pixels) a = b := by
  induction pixels using List.reverseRecOn with
  | nil => exact absurd hmem List.not_mem_nil
  | append_singleton pixels c ih =>
    rw [List.map_append, List.nodup_append] at hnodup
    obtain ⟨hinit, -, hdisjoint⟩ := hnodup
    rw [Memory.ofCells_concat]
    rcases List.mem_append.1 hmem with hmem | hlast
    · have hne : a ≠ c.1 := hdisjoint a (List.mem_map_of_mem hmem) c.1 List.mem_cons_self
      rw [Memory.read_write_other _ _ _ _ hne, ih hinit hmem]
    · cases List.mem_singleton.1 hlast
      exact Memory.read_write_same ..

/-- The host connects an image whose pixels all exist. -/
theorem connectRaster_next {pixels : List Host.Cell} (haddr : ∀ c ∈ pixels, c.1 < Memory.size) (s : State) :
    connectRaster pixels s = .next { s with raster := Memory.ofCells pixels } := by
  have hfind : pixels.find? (fun c => decide (Memory.size ≤ c.1)) = none :=
    List.find?_eq_none.2 fun c hc => by simpa using haddr c hc
  simp only [connectRaster, hfind]

/-- Settles O16: the image that the step stores is read back as it was listed. -/
theorem connectedImageIsWhatIsRead : Obligations.ConnectedImageIsWhatIsRead := by
  intro s pixels rest hq haddr hnodup
  refine ⟨{ s with queue := rest, raster := Memory.ofCells pixels }, ?_, rfl, fun x y b hmem => ?_⟩
  · rw [step_event s _ rest hq]
    exact connectRaster_next haddr _
  · exact Memory.read_ofCells hnodup hmem

end Sys2Proof.Machine
end

section
/-! No command writes a configuration register, the raster, a capacity or what is outside the unit (R33-R42, R55, R72), and
a step leaves at least the capacities and, when the host connects no image, the raster. -/

namespace Sys2Proof.Machine

theorem keptByFaults_outside (s : State) : KeptByFaults (SameOutsideImage s) := fun _ _ _ _ _ ht =>
  ht.trans (by constructor <;> rfl)

theorem setResult_keeps_outside (v : Word) (s : State) : SameOutsideImage s (setResult v s) := by constructor <;> rfl

theorem promoteEmpty_keeps_outside (s : State) : SameOutsideImage s (promoteEmpty s) := by
  rcases promoteEmpty_cases s with ⟨e, -, -, h⟩ | ⟨-, h⟩ <;> rw [h] <;> constructor <;> rfl

theorem finalizeImage_keeps_outside (s : State) : SameOutsideImage s (finalizeImage s) :=
  (promoteEmpty_keeps_outside s).trans (by constructor <;> rfl)

/-- The build cursor over any list of cells (R188). -/
theorem buildCells_keeps_outside (cells : List (Nat × Nat)) (s : State) :
    (buildCells cells s).Keeps (SameOutsideImage s) := by
  induction cells generalizing s with
  | nil => exact .refl s
  | cons c rest ih =>
    obtain ⟨cx, cy⟩ := c
    have hcell := cellStep_keeps_outside cx cy (cellIndex s cx cy) s
    rw [buildCells_cons]
    cases hc : cellStep cx cy (cellIndex s cx cy) s with
    | raised code cell t => exact (hc ▸ hcell).imp fun _ ⟨hsame, _⟩ => hsame
    | done v t =>
      rw [hc] at hcell
      obtain ⟨hsame, -⟩ := hcell
      exact (ih t).imp fun _ hrest => hsame.trans hrest

theorem execBuildCharmap_keeps_outside {s t : State} (h : execBuildCharmap s = .next t) : SameOutsideImage s t := by
  refine runCommand_keeps h (keptByFaults_outside s) (by simp) (.refl s) fun _ => ?_
  have hclear : SameOutsideImage s (dataClear s) := by constructor <;> rfl
  have hbuild := (buildCells_keeps_outside (cellsInRasterOrder s) (dataClear s)).imp fun _ => hclear.trans
  cases hb : buildCells (cellsInRasterOrder s) (dataClear s) with
  | done u t =>
    rw [hb] at hbuild
    exact hbuild.trans (finalizeImage_keeps_outside t)
  | raised code cell t => rwa [hb] at hbuild

theorem exec_keeps_outside {i : Instr} {s t : State} (h : exec i s = .next t) : SameOutsideImage s t := by
  have hfault := keptByFaults_outside s
  have hs : SameOutsideImage s s := .refl s
  have hresult : ∀ r u, SameOutsideImage s u → SameOutsideImage s (setResult r u) :=
    fun r u hu => hu.trans (setResult_keeps_outside r u)
  cases i
  all_goals simp only [exec] at h
  case clear => exact runCommand_keeps h hfault (by simp) hs fun _ => by constructor <;> rfl
  case roleReset => exact runCommand_keeps h hfault (by simp) hs fun _ => by constructor <;> rfl
  case resolve ctx width pix => exact runCommand_keeps h hfault (by simp) hs fun _ => by constructor <;> rfl
  case detect ctx x y => exact runCommand_keeps h hfault (by simp) hs fun _ => hresult _ s hs
  case encode ctx wsel x y => exact runCommand_keeps h hfault (by simp) hs fun _ => by constructor <;> rfl
  case lookupInsert =>
    exact execLookupInsert_keeps h hfault hs hresult
      ((lookupOrInsert_keeps_outside ..).imp fun _ ⟨hsame, _⟩ => hsame)
  case promoteEmpty => exact runCommand_keeps h hfault (by simp) hs fun _ => promoteEmpty_keeps_outside s
  case buildCell cx cy =>
    exact execBuildCell_keeps h hfault hs hresult fun _ =>
      (cellStep_keeps_outside ..).imp fun _ ⟨hsame, _⟩ => hsame
  case buildCharmap => exact execBuildCharmap_keeps_outside h
  case finalize => exact runCommand_keeps h hfault (by simp) hs fun _ => finalizeImage_keeps_outside s
  case readDict idx byte => exact runRead_keeps h hfault hs fun r => hresult r s hs
  case readMap idx => exact runRead_keeps h hfault hs fun r => hresult r s hs
  case readCmap idx => exact runRead_keeps h hfault hs fun r => hresult r s hs
  case readBuf byte => exact runRead_keeps h hfault hs fun r => hresult r s hs

/-- The dispatcher runs a command, ignores one, or records an illegal word (R227). -/
theorem issue_keeps_outside {w : Word} {s t : State} (h : issue w s = .next t) : SameOutsideImage s t := by
  rcases issue_cases w s with ⟨-, -, hi⟩ | ⟨-, -, hi⟩ | ⟨-, i, -, hi⟩ | ⟨-, r, -, hi⟩ <;> rw [hi] at h
  · exact exec_keeps_outside h
  · cases h
    constructor <;> rfl
  · exact exec_keeps_outside h
  · cases h
    exact keptByFaults_outside s w .illegalCommand noCell s (by decide) (.refl s)

/-- Settles O58, by what the next event from outside is: a command is the dispatcher's, and the other events but the
connection of an image write neither the raster nor a capacity. -/
theorem onlyTheHostChangesTheRaster : Obligations.OnlyTheHostChangesTheRaster := by
  intro s t h
  rcases step_next_cases s t h with ⟨-, rfl⟩ | ⟨e, rest, hq, hevent⟩
  · exact ⟨rfl, rfl, .inl rfl⟩
  · rcases hevent with
      ⟨off, -, rfl⟩ | ⟨off, v, -, -, rfl⟩ | ⟨off, v, -, -, hissue⟩ | ⟨pixels, rfl, -, rfl⟩ | ⟨-, rfl⟩
    · exact ⟨rfl, rfl, .inl rfl⟩
    · exact ⟨writeReg_dictCap .., writeReg_mapCap .., .inl (writeReg_raster ..)⟩
    · have hsame := issue_keeps_outside hissue
      exact ⟨hsame.dictCap, hsame.mapCap, .inl hsame.raster⟩
    · exact ⟨rfl, rfl, .inr ⟨pixels, rest, hq⟩⟩
    · exact ⟨rfl, rfl, .inl rfl⟩

end Sys2Proof.Machine
end

section
/-! What each format's decoder accepts and refuses (R91-R94), and the statement of spec/30_encoding.md about the illegal
words and the dispatcher (R97, R224). -/

namespace Sys2Proof.Machine

/-- The decoder's answer against a condition on the word: it refuses the word under the condition, and gives a command of the
unit otherwise. -/
def RefusesExactly (illegal : Prop) : Decoded → Prop
  | .legal i => ¬ illegal ∧ i.wellFormed = true
  | .illegal _ => illegal

theorem RefusesExactly.congr {p q : Prop} {d : Decoded} (h : RefusesExactly p d) (hpq : q ↔ p) : RefusesExactly q d :=
  propext hpq ▸ h

/-- A check of bits that must be 0, made before the rest of a format. -/
theorem refusesExactly_ite {c p : Prop} [Decidable c] {d : Decoded} (r : IllegalReason) (h : c → RefusesExactly p d) :
    RefusesExactly (c → p) (if c then d else .illegal r) := by
  split
  case isTrue hc => exact (h hc).congr (forall_prop_of_true hc)
  case isFalse hc => exact fun hc' => absurd hc' hc

/-- The check of a format that has no other. -/
theorem refusesExactly_check {c : Prop} [Decidable c] {i : Instr} (r : IllegalReason) (hi : i.wellFormed = true) :
    RefusesExactly (¬ c) (if c then .legal i else .illegal r) :=
  refusesExactly_ite (p := False) r fun _ => ⟨id, hi⟩

/-! ### Fields that a format tests -/

theorem extractLsb'_eq_zero_iff {m : Nat} (w : BitVec m) (lo len : Nat) :
    w.extractLsb' lo len = 0#len ↔ w.toNat / 2 ^ lo % 2 ^ len = 0 := by
  rw [← toNat_field, ← BitVec.toNat_inj, BitVec.toNat_zero]

/-- `WSEL` and bit 24, as the decoder of `DETECT` tests them (R93). -/
theorem wselAndBit24_eq_zero_iff (w : Word) :
    w.extractLsb' 24 3 = 0#3 ↔ w.extractLsb' 25 2 = 0#2 ∧ w.getLsbD 24 = false := by
  simp only [extractLsb'_eq_zero_iff, getLsbD_eq_decide, decide_eq_false_iff_not]
  omega

/-- `CTX`, `WSEL` and bit 24, as the decoder of `BUILD_CELL` tests them (R93). -/
theorem ctxWselAndBit24_eq_zero_iff (w : Word) :
    w.extractLsb' 24 4 = 0#4 ↔ w.getLsbD 27 = false ∧ w.extractLsb' 25 2 = 0#2 ∧ w.getLsbD 24 = false := by
  simp only [extractLsb'_eq_zero_iff, getLsbD_eq_decide, decide_eq_false_iff_not]
  omega

/-- Bit 24, as the decoder of `ENCODE` tests it (R93). -/
theorem bit24_eq_zero_iff (w : Word) : w.extractLsb' 24 1 = 0#1 ↔ w.getLsbD 24 = false := by
  simp only [extractLsb'_eq_zero_iff, getLsbD_eq_decide, decide_eq_false_iff_not]
  omega

theorem widthSelOf_eq_reserved (b : BitVec 2) : widthSelOf b = .reserved ↔ b = 3#2 := by
  rw [← widthSelBits_eq_three, widthSelBits_widthSelOf]

/-! ### The formats -/

theorem decodeResolve_refuses (w : Word) : RefusesExactly (w.extractLsb' 8 18 ≠ 0#18) (decodeResolve w) :=
  refusesExactly_check .mustBeZero rfl

theorem decodeDetect_refuses (w : Word) :
    RefusesExactly (w.extractLsb' 25 2 ≠ 0#2 ∨ w.getLsbD 24 = true) (decodeDetect w) :=
  (refusesExactly_check .mustBeZero rfl).congr (by rw [wselAndBit24_eq_zero_iff]; simp [imp_iff_not_or])

theorem decodeEncode_refuses (w : Word) :
    RefusesExactly (w.extractLsb' 25 2 = 3#2 ∨ w.getLsbD 24 = true) (decodeEncode w) := by
  refine (refusesExactly_ite (p := w.extractLsb' 25 2 = 3#2) .mustBeZero fun _ => ?_).congr ?_
  · split
    case isTrue hwsel => exact hwsel
    case isFalse hwsel => exact ⟨hwsel, by simpa [Instr.wellFormed, widthSelOf_eq_reserved] using hwsel⟩
  · rw [bit24_eq_zero_iff, ← Bool.not_eq_true, or_comm, or_iff_not_imp_left]

theorem decodeBuildCell_refuses (w : Word) :
    RefusesExactly (w.getLsbD 27 = true ∨ w.extractLsb' 25 2 ≠ 0#2 ∨ w.getLsbD 24 = true) (decodeBuildCell w) :=
  (refusesExactly_check .mustBeZero rfl).congr (by rw [ctxWselAndBit24_eq_zero_iff]; simp [imp_iff_not_or])

/-- Each array has its own bits that must be 0, and an array that is not there is refused (R94). -/
theorem decodeRead_refuses (w : Word) :
    RefusesExactly
      (4 ≤ (w.extractLsb' 24 4).toNat ∨
        ((w.extractLsb' 24 4).toNat = 1 ∧ w.extractLsb' 0 8 ≠ 0#8) ∨
        ((w.extractLsb' 24 4).toNat = 2 ∧ w.extractLsb' 0 8 ≠ 0#8) ∨
        ((w.extractLsb' 24 4).toNat = 3 ∧ w.extractLsb' 8 16 ≠ 0#16)) (decodeRead w) := by
  unfold decodeRead
  split
  case isTrue hdict => exact ⟨by simp [hdict], rfl⟩
  split
  case isTrue hmap => exact (refusesExactly_check .mustBeZero rfl).congr (by simp [hmap])
  split
  case isTrue hcmap => exact (refusesExactly_check .mustBeZero rfl).congr (by simp [hcmap])
  split
  case isTrue hbuf => exact (refusesExactly_check .mustBeZero rfl).congr (by simp [hbuf])
  case isFalse hdict hmap hcmap hbuf =>
    have hreserved : 4 ≤ (w.extractLsb' 24 4).toNat := by bv_omega
    exact .inl hreserved

/-! ### The list of R97 -/

/-- The opcodes of format Z have one clause of the list (R91, R96). -/
theorem illegalByR97_of_formatZ {w : Word} (hop : (w.extractLsb' 28 4).toNat ∈ [0, 1, 5, 6, 8, 9]) :
    illegalByR97 w ↔ w.extractLsb' 0 28 ≠ 0#28 := by
  have hreserved : ¬ 11 ≤ (w.extractLsb' 28 4).toNat := by
    simp only [List.mem_cons, List.not_mem_nil, or_false] at hop
    omega
  have hother (n : Nat) (hn : n ∉ [0, 1, 5, 6, 8, 9]) : (w.extractLsb' 28 4).toNat ≠ n := fun h => hn (h ▸ hop)
  simp only [illegalByR97, hop, hreserved, hother 2 (by decide), hother 3 (by decide), hother 4 (by decide),
    hother 7 (by decide), hother 10 (by decide), true_and, false_and, false_or, or_false]

theorem decodeZ_refuses {w : Word} {i : Instr} (hi : i.wellFormed = true)
    (hop : (w.extractLsb' 28 4).toNat ∈ [0, 1, 5, 6, 8, 9]) : RefusesExactly (illegalByR97 w) (decodeZ w i) :=
  (refusesExactly_check .mustBeZero hi).congr (illegalByR97_of_formatZ hop)

/-- The decoder refuses the words of R97's list and no others: by the opcode, which alone selects the format (R96). -/
theorem decode_refuses_illegalByR97 (w : Word) : RefusesExactly (illegalByR97 w) (decode w) := by
  unfold decode
  split
  next hop => exact decodeZ_refuses rfl (by simp [hop])
  next hop => exact decodeZ_refuses rfl (by simp [hop])
  next hop => exact (decodeResolve_refuses w).congr (by simp [illegalByR97, hop])
  next hop => exact (decodeDetect_refuses w).congr (by simp [illegalByR97, hop])
  next hop => exact (decodeEncode_refuses w).congr (by simp [illegalByR97, hop])
  next hop => exact decodeZ_refuses rfl (by simp [hop])
  next hop => exact decodeZ_refuses rfl (by simp [hop])
  next hop => exact (decodeBuildCell_refuses w).congr (by simp [illegalByR97, hop])
  next hop => exact decodeZ_refuses rfl (by simp [hop])
  next hop => exact decodeZ_refuses rfl (by simp [hop])
  next hop => exact (decodeRead_refuses w).congr (by simp [illegalByR97, hop])
  next =>
    have hreserved : 11 ≤ (w.extractLsb' 28 4).toNat := by grind only
    exact .inl hreserved

/-- Settles O4: the decoder refuses exactly the words of the list, and the dispatcher without a fault does as the decoder
answers. -/
theorem illegalWordsAreThoseOfTheListAndRaise : Obligations.IllegalWordsAreThoseOfTheListAndRaise := by
  intro w s hfault
  have hdecode := decode_refuses_illegalByR97 w
  rcases issue_cases w s with ⟨hset, -, -⟩ | ⟨hset, -, -⟩ | ⟨-, i, hd, hissue⟩ | ⟨-, r, hd, hissue⟩
  · exact absurd (hfault.symm.trans hset) (by decide)
  · exact absurd (hfault.symm.trans hset) (by decide)
  · rw [hd] at hdecode
    obtain ⟨hlegal, hwf⟩ := hdecode
    exact ⟨fun hillegal => absurd hillegal hlegal, fun _ => ⟨i, hd, hwf, hissue⟩⟩
  · rw [hd] at hdecode
    exact ⟨fun _ => hissue, fun hlegal => absurd hdecode hlegal⟩

end Sys2Proof.Machine
end

section
/-! Which check decides a command, and the statements of spec/40_color_roles.md: the role configuration (R110), the
reset of the roles (R112), and the resolver (R113-R118). -/

namespace Sys2Proof.Machine

/-! ### The first failing check decides (R228) -/

theorem firstFailing_of_fails {c : Check} (h : c.fails = true) (cs : List Check) : firstFailing (c :: cs) = some c := by
  rw [firstFailing_cons, if_pos h]

theorem firstFailing_of_passes {c : Check} (h : c.fails = false) (cs : List Check) :
    firstFailing (c :: cs) = firstFailing cs := by
  rw [firstFailing_cons, h]
  rfl

theorem runCommand_faulted {cs : List Check} {c : Check} (h : firstFailing cs = some c) (w : Word) (s : State)
    (body : Attempt Unit) : runCommand w cs s body = .next (faulted w (faultNumber c.code) c.cell s) := by
  simp only [runCommand, h]
  rfl

theorem configCheck_passes {s : State} (h : configOk s) : (configCheck s).fails = false := by
  rw [configCheck_fails, Bool.and_eq_false_eq_eq_false_or_eq_false, ← Bool.not_eq_true, ← Bool.not_eq_true]
  exact not_and_or.1 h

theorem configOk_of_no_foreground {s : State} (h : s.cfgFg.getLsbD 8 = false) : configOk s :=
  fun ⟨hfg, _⟩ => absurd (h.symm.trans hfg) (by decide)

theorem configOk_of_no_pair {s : State} (h : s.cfgMc.getLsbD 16 = false) : configOk s :=
  fun ⟨_, hmc⟩ => absurd (h.symm.trans hmc) (by decide)

theorem formatCheck_passes {s : State} (h : s.rasterFmt = 1#1) : (formatCheck s).fails = false := by
  rw [← Bool.not_eq_true, formatCheck_fails, h]
  decide

theorem regionCheck_passes {s : State} {ctx : Context} {x y : Nat} (h : regionInside s ctx x y) :
    (regionCheck s ctx x y).fails = false := by
  rw [← Bool.not_eq_true, regionCheck_fails]
  exact fun hout => hout.elim h.1.not_gt h.2.not_gt

/-- Settles O17: `CfgCheck` fails, and of the commands that make it only `ENCODE` makes another before, which a well-formed
word passes. -/
theorem contradictoryOptionsRaiseConfigError : Obligations.ContradictoryOptionsRaiseConfigError := by
  intro i s hreads hwf hfg hmc
  have hconfig : (configCheck s).fails = true := by rw [configCheck_fails, hfg, hmc]; rfl
  have hfirst := firstFailing_of_fails hconfig
  cases i
  all_goals simp only [exec]
  case roleReset => exact runCommand_faulted (hfirst _) ..
  case resolve ctx width pix => exact runCommand_faulted (hfirst _) ..
  case detect ctx x y => exact runCommand_faulted (hfirst _) ..
  case buildCell cx cy => exact runCommand_faulted (hfirst _) ..
  case buildCharmap => exact runCommand_faulted (hfirst _) ..
  case encode ctx wsel x y =>
    have hwsel : (wselCheck wsel).fails = false := by
      rw [← Bool.not_eq_true, wselCheck_fails]
      rintro rfl
      cases hwf
    exact runCommand_faulted ((firstFailing_of_passes hwsel _).trans (hfirst _)) ..
  all_goals exact hreads.elim

/-! ### The role defaults (R112) -/

/-- The role defaults from the bits of the registers. -/
theorem roleDefaults_eq (s : State) : roleDefaults s =
    { bg := if s.cfgBg.getLsbD 8 then some (s.cfgBg.extractLsb' 0 8)
            else if s.cfgHint.getLsbD 8 then some (s.cfgHint.extractLsb' 0 8) else none
      mc1 := if s.cfgMc.getLsbD 16 then some (s.cfgMc.extractLsb' 0 8) else none
      mc2 := if s.cfgMc.getLsbD 16 then some (s.cfgMc.extractLsb' 8 8) else none
      uq := if s.cfgFg.getLsbD 8 then some (s.cfgFg.extractLsb' 0 8) else none } := by
  have hbg : backgroundDefault s = if s.cfgBg.getLsbD 8 then some (s.cfgBg.extractLsb' 0 8) else optionOf s.cfgHint := by
    unfold backgroundDefault
    cases h : s.cfgBg.getLsbD 8
    · rw [optionOf_none _ h]; rfl
    · rw [optionOf_some _ h]; rfl
  have hmc : ∀ f : Byte × Byte → Byte, (multicolorPair s).map f =
      if s.cfgMc.getLsbD 16 then some (f (s.cfgMc.extractLsb' 0 8, s.cfgMc.extractLsb' 8 8)) else none := by
    intro f
    cases h : s.cfgMc.getLsbD 16
    · rw [multicolorPair_none s h]; rfl
    · rw [multicolorPair_some s h]; rfl
  simp only [roleDefaults, hbg, hmc]
  rfl

/-- Settles O18: `CfgCheck` passes, and the defaults are read bit by bit. -/
theorem roleResetLoadsTheDefaults : Obligations.RoleResetLoadsTheDefaults := by
  intro s hconfig
  rw [← roleDefaults_eq]
  exact runCommand_done _ _ _ _ (List.forall_mem_singleton.2 (configCheck_passes hconfig))

/-! ### The resolver (R114) -/

/-- The search of the multicolor roles in priority order, for the role that holds a value or, with `none`, for an unbound
one. -/
theorem find?_multicolorRoles (f : RoleFile) (v : Option Byte) (mc2Code uqCode : BitVec 2) :
    [(RoleName.bg, 0#2), (.mc1, 1#2), (.mc2, mc2Code), (.uq, uqCode)].find? (fun e => roleGet f e.1 == v) =
      if f.bg = v then some (.bg, 0#2) else if f.mc1 = v then some (.mc1, 1#2)
      else if f.mc2 = v then some (.mc2, mc2Code) else if f.uq = v then some (.uq, uqCode) else none := by
  simp only [List.find?_cons, List.find?_nil, roleGet]
  grind

theorem find?_hiresRoles (f : RoleFile) (v : Option Byte) :
    [(RoleName.bg, 0#2), (.uq, 1#2)].find? (fun e => roleGet f e.1 == v) =
      if f.bg = v then some (.bg, 0#2) else if f.uq = v then some (.uq, 1#2) else none := by
  simp only [List.find?_cons, List.find?_nil, roleGet]
  grind

theorem learnRole_multicolor {ctx : Context} {mc2Code uqCode : BitVec 2} (p : Byte) (f : RoleFile)
    (horder : roleOrder .multicolor ctx = [(.bg, 0#2), (.mc1, 1#2), (.mc2, mc2Code), (.uq, uqCode)])
    (hcatch : catchAllCode .multicolor ctx = uqCode) :
    learnRole .multicolor ctx p f = multicolorByR114 p mc2Code uqCode f := by
  unfold learnRole multicolorByR114
  rw [horder, find?_multicolorRoles, find?_multicolorRoles, hcatch]
  split_ifs <;> rfl

theorem learnRole_hires (ctx : Context) (p : Byte) (f : RoleFile) : learnRole .hires ctx p f = hiresByR114 p f := by
  unfold learnRole hiresByR114
  rw [show roleOrder .hires ctx = [(.bg, 0#2), (.uq, 1#2)] from rfl, find?_hiresRoles, find?_hiresRoles]
  split_ifs <;> rfl

theorem resolvePixel_override (v p : Byte) (ctx : Context) (f : RoleFile) :
    resolvePixel (some v) p .hires ctx f = (if p = v then 1#2 else 0#2, f) := rfl

/-- A bound role stays bound to its value (R116): the resolver binds unbound roles only. -/
theorem resolvePixel_keeps_bound {f : RoleFile} {r : RoleName} {v : Byte} (h : roleGet f r = some v) (fg : Option Byte)
    (p : Byte) (w : PixelWidth) (ctx : Context) : roleGet (resolvePixel fg p w ctx f).2 r = some v := by
  rcases resolvePixel_roles fg p w ctx f with hf | ⟨q, hq, hf⟩ <;> rw [hf]
  · exact h
  · have hne : r ≠ q := by
      rintro rfl
      exact absurd (hq.symm.trans h) (by simp)
    rw [roleGet_roleBind, if_neg hne, h]

/-! ### `RESOLVE` (R113) -/

theorem foreground_none {s : State} (h : s.cfgFg.getLsbD 8 = false) : foreground s = none := optionOf_none _ h

theorem foreground_some {s : State} (h : s.cfgFg.getLsbD 8 = true) : foreground s = some (s.cfgFg.extractLsb' 0 8) :=
  optionOf_some _ h

/-- `RESOLVE` completes when neither of its checks fails. -/
theorem exec_resolve_done {s : State} {width : PixelWidth} (hconfig : configOk s)
    (hwidth : ¬ (width = .multicolor ∧ s.cfgFg.getLsbD 8 = true)) (ctx : Context) (pix : Byte) :
    exec (.resolve ctx width pix) s = .next (resolveBody ctx width pix s) := by
  have hpass : (widthCheck s (width == .multicolor)).fails = false := by
    rw [widthCheck_fails, ← Bool.not_eq_true, Bool.and_eq_true, beq_iff_eq]
    exact hwidth
  exact runCommand_done _ _ _ _ (by simp [configCheck_passes hconfig, hpass])

/-- Settles O19: the checks pass without a foreground, and the learning resolver is the match, bind and catch-all of
R114. -/
theorem resolveMatchesThenBindsThenCatchesAll : Obligations.ResolveMatchesThenBindsThenCatchesAll := by
  intro ctx pix s hfg
  have hconfig := configOk_of_no_foreground hfg
  have hwidth : ∀ width : PixelWidth, ¬ (width = .multicolor ∧ s.cfgFg.getLsbD 8 = true) :=
    fun _ ⟨_, hset⟩ => absurd (hfg.symm.trans hset) (by decide)
  refine ⟨?_, ?_, ?_⟩
  · rw [exec_resolve_done hconfig (hwidth _), ← learnRole_hires ctx, resolveBody, foreground_none hfg]
    rfl
  · rw [exec_resolve_done hconfig (hwidth _), ← learnRole_multicolor (ctx := .character) pix s.roles rfl rfl]
    rfl
  · rw [exec_resolve_done hconfig (hwidth _), ← learnRole_multicolor (ctx := .sprite) pix s.roles rfl rfl]
    rfl

/-- Settles O20: in hires the override compares and reads no role; at multicolor width the check of the width fails, and it
comes after `CfgCheck`, which passes. -/
theorem foregroundOverrideForcesHires : Obligations.ForegroundOverrideForcesHires := by
  intro ctx pix s hfg hmc
  have hconfig := configCheck_passes (configOk_of_no_pair hmc)
  have hwsel : (wselCheck .multicolor).fails = false := rfl
  have hwidth : (widthCheck s true).fails = true := by rw [widthCheck_fails, hfg]; rfl
  refine ⟨?_, ?_, fun x y => ?_⟩
  · rw [exec_resolve_done (configOk_of_no_pair hmc) (by simp), resolveBody, foreground_some hfg, resolvePixel_override,
      apply_ite (BitVec.setWidth 32)]
    rfl
  · simp only [exec]
    exact runCommand_faulted ((firstFailing_of_passes hconfig _).trans (firstFailing_of_fails hwidth _)) ..
  · simp only [exec]
    exact runCommand_faulted ((firstFailing_of_passes hwsel _).trans
      ((firstFailing_of_passes hconfig _).trans (firstFailing_of_fails hwidth _))) ..

/-! ### Bound roles (R116) -/

theorem lookupOrInsert_roles (b : Block) (cell : Word) (s : State) :
    (lookupOrInsert b cell s).Keeps fun t => t.roles = s.roles := by
  rcases lookupOrInsert_cases b cell s with ⟨i, -, h⟩ | ⟨-, -, h⟩ | ⟨-, -, h⟩ <;> rw [h]
  · exact rfl
  · exact ⟨by decide, rfl⟩
  · exact rfl

/-- Settles O21: of the commands that do not reset the roles, only `RESOLVE` writes the role file, and it binds unbound
roles only. -/
theorem noRoleIsReboundWithinABlock : Obligations.NoRoleIsReboundWithinABlock := by
  intro i s t r v hreset h hs
  have hfault : KeptByFaults fun u => roleGet u.roles r = some v := fun _ _ _ _ _ hu => hu
  cases i
  all_goals simp only [exec] at h
  case resolve ctx width pix =>
    exact runCommand_keeps h hfault (by simp) hs fun _ => resolvePixel_keeps_bound hs ..
  case detect ctx x y => exact runCommand_keeps h hfault (by simp) hs fun _ => hs
  case lookupInsert =>
    exact execLookupInsert_keeps h hfault hs (fun _ _ hu => hu)
      ((lookupOrInsert_roles ..).imp fun u hu => by rwa [hu])
  case promoteEmpty =>
    exact runCommand_keeps h hfault (by simp) hs fun _ => by rwa [Attempt.Keeps, promoteEmpty_roles]
  case finalize =>
    exact runCommand_keeps h hfault (by simp) hs fun _ => by
      rwa [Attempt.Keeps, finalizeImage, setResult_roles, testAddressSpace_roles, promoteEmpty_roles]
  case readDict idx byte => exact runRead_keeps h hfault hs fun _ => hs
  case readMap idx => exact runRead_keeps h hfault hs fun _ => hs
  case readCmap idx => exact runRead_keeps h hfault hs fun _ => hs
  case readBuf byte => exact runRead_keeps h hfault hs fun _ => hs
  all_goals exact absurd trivial hreset

end Sys2Proof.Machine
end

section
/-! What the scan of a block leaves in the buffer, bit by bit (R132, R73, R74), when `ENCODE` completes (R131), and what a
foreground override makes of a block (R114 case 1). -/

namespace Sys2Proof.Machine

/-! ### The scan (R132) -/

/-- A pixel's code has a bit at bit `i` of byte `j` of the block (R73, R74). -/
def codeBitAt (ctx : Context) (width : PixelWidth) (p : Nat × Nat) (c : BitVec 2) (j i : Nat) : Prop :=
  p.2 * rowBytes ctx + p.1 / 8 = j ∧ 8 - pixelBits width - p.1 % 8 ≤ i ∧
    c.getLsbD (i - (8 - pixelBits width - p.1 % 8)) = true

theorem getLsbD_packCode_iff {ctx : Context} {p : Nat × Nat} (h : p.2 * rowBytes ctx + p.1 / 8 < 64) (width : PixelWidth)
    (c : BitVec 2) (b : Vector Byte 64) (j : Nat) {i : Nat} (hi : i < 8) :
    (bufByte (packCode ctx width p.1 p.2 c b) j).getLsbD i = true ↔
      (bufByte b j).getLsbD i = true ∨ codeBitAt ctx width p c j i := by
  rw [getLsbD_packCode _ _ _ _ _ _ _ _ h]
  simp [codeBitAt, hi, and_assoc]

/-- The roles after some pixels are resolved in order, from the roles `f` on (R132, R135). -/
def rolesAfter (s : State) (x0 y0 : Nat) (ctx : Context) (width : PixelWidth) (f : RoleFile) (pixels : List (Nat × Nat)) :
    RoleFile :=
  pixels.foldl (fun f p => (resolvePixel (foreground s) (rasterRead s (x0 + p.1) (y0 + p.2)) width ctx f).2) f

theorem rolesBefore_eq_rolesAfter (s : State) (x0 y0 : Nat) (ctx : Context) (width : PixelWidth) (n : Nat) :
    rolesBefore s x0 y0 ctx width n = rolesAfter s x0 y0 ctx width (roleDefaults s) ((scanOrder ctx width).take n) := rfl

theorem rolesAfter_cons (s : State) (x0 y0 : Nat) (ctx : Context) (width : PixelWidth) (f : RoleFile) (p : Nat × Nat)
    (rest : List (Nat × Nat)) :
    rolesAfter s x0 y0 ctx width f (p :: rest) =
      rolesAfter s x0 y0 ctx width
        (resolvePixel (foreground s) (rasterRead s (x0 + p.1) (y0 + p.2)) width ctx f).2 rest := rfl

/-- A scan ORs the code of each pixel, resolved with the roles that the pixels before it leave, into the buffer. -/
theorem getLsbD_scanPixels (s : State) (x0 y0 : Nat) (ctx : Context) (width : PixelWidth) (pixels : List (Nat × Nat))
    (hplace : ∀ p ∈ pixels, p.2 * rowBytes ctx + p.1 / 8 < 64) (f : RoleFile) (b : Vector Byte 64) (j : Nat) {i : Nat}
    (hi : i < 8) :
    (bufByte (pixels.foldl (scanPixel s x0 y0 ctx width) (f, b)).2 j).getLsbD i = true ↔
      (bufByte b j).getLsbD i = true ∨ ∃ n p, pixels[n]? = some p ∧
        codeBitAt ctx width p
          (resolvePixel (foreground s) (rasterRead s (x0 + p.1) (y0 + p.2)) width ctx
            (rolesAfter s x0 y0 ctx width f (pixels.take n))).1 j i := by
  induction pixels generalizing f b with
  | nil => simp
  | cons q rest ih =>
    obtain ⟨hq, hrest⟩ := List.forall_mem_cons.1 hplace
    rw [List.foldl_cons, scanPixel, ih hrest, getLsbD_packCode_iff hq width _ b j hi, or_assoc]
    refine or_congr_right (Iff.trans ?_ Nat.or_exists_add_one)
    simp only [List.getElem?_cons_zero, List.getElem?_cons_succ, Option.some.injEq, exists_eq_left', List.take_zero,
      List.take_succ_cons, rolesAfter_cons]
    rfl

/-- Every bit of a data byte after the scan of a block is a bit of the code of a scanned pixel. -/
theorem getLsbD_scanBlock (s : State) (x0 y0 : Nat) (ctx : Context) (width : PixelWidth) {j i : Nat}
    (hj : j < dataBytes ctx) (hi : i < 8) :
    (bufByte (scanBlock s x0 y0 ctx width).2 j).getLsbD i = true ↔
      ∃ n p, (scanOrder ctx width)[n]? = some p ∧
        codeBitAt ctx width p (codeAt s x0 y0 ctx width n p.1 p.2) j i := by
  have hdata : dataBytes ctx ≤ 63 := by cases ctx <;> decide
  have hplace : ∀ p ∈ scanOrder ctx width, p.2 * rowBytes ctx + p.1 / 8 < 64 := fun p hp => by
    obtain ⟨-, -, -, hp⟩ := scanOrder_bounds ctx width p hp
    omega
  have hfresh : bufByte (freshBuffer ctx s.cfgSprPad s.buf) j = 0#8 := by
    rw [bufByte_freshBuffer]
    cases ctx
    · exact if_pos hj
    · exact if_neg (Nat.ne_of_lt hj)
  rw [scanBlock, getLsbD_scanPixels s x0 y0 ctx width _ hplace _ _ j hi, hfresh]
  simp [codeAt, rolesBefore_eq_rolesAfter]

theorem mem_scanOrder_hires (ctx : Context) (p : Nat × Nat) :
    p ∈ scanOrder ctx .hires ↔ p.1 < regionWidth ctx ∧ p.2 < regionHeight ctx := by
  obtain ⟨x, y⟩ := p
  simp [scanOrder, pixelBits, and_comm]

/-! ### `ENCODE` (R131) -/

/-- `ENCODE` completes when none of its checks fails. -/
theorem exec_encode_done {ctx : Context} {wsel : WidthSel} {x y : BitVec 12} {s : State} (hconfig : configOk s)
    (hwsel : wsel ≠ .reserved) (hwidth : ¬ (wsel = .multicolor ∧ s.cfgFg.getLsbD 8 = true)) (hfmt : s.rasterFmt = 1#1)
    (hin : regionInside s ctx x.toNat y.toNat) :
    exec (.encode ctx wsel x y) s = .next (encodeBody ctx wsel x.toNat y.toNat s) := by
  have hselPasses : (wselCheck wsel).fails = false := by rwa [← Bool.not_eq_true, wselCheck_fails]
  have hwidthPasses : (widthCheck s (wsel == .multicolor)).fails = false := by
    rw [widthCheck_fails, ← Bool.not_eq_true, Bool.and_eq_true, beq_iff_eq]
    exact hwidth
  exact runCommand_done _ _ _ _ (by
    simp [hselPasses, hwidthPasses, configCheck_passes hconfig, formatCheck_passes hfmt, regionCheck_passes hin])

/-! ### Blocks under a foreground override (R114 case 1) -/

theorem autoWidth_override {s : State} (hfg : s.cfgFg.getLsbD 8 = true) (x0 y0 : Nat) (ctx : Context) :
    autoWidth s x0 y0 ctx = .hires := by
  have hmode : effectiveMode s = .hires := by rw [effectiveMode_eq, hfg]; simp
  rw [autoWidth, hmode]

theorem codeAt_override {s : State} (hfg : s.cfgFg.getLsbD 8 = true) (x0 y0 : Nat) (ctx : Context) (n x y : Nat) :
    codeAt s x0 y0 ctx .hires n x y =
      if rasterRead s (x0 + x) (y0 + y) = s.cfgFg.extractLsb' 0 8 then 1#2 else 0#2 := by
  rw [codeAt, foreground_some hfg, resolvePixel_override]

/-- A hires pixel's one bit, at `7 - (x mod 8)`: no other pixel of the region has that place. -/
theorem codeBitAt_hires_iff {ctx : Context} {p : Nat × Nat} {u v : Nat} (hp : p.1 < regionWidth ctx)
    (hu : u < regionWidth ctx) (isSet : Prop) [Decidable isSet] :
    codeBitAt ctx .hires p (if isSet then 1#2 else 0#2) (v * rowBytes ctx + u / 8) (7 - u % 8) ↔ p = (u, v) ∧ isSet := by
  have hbit : ∀ k, (if isSet then 1#2 else 0#2).getLsbD k = true ↔ k = 0 ∧ isSet := by
    intro k
    by_cases h : isSet <;> simp [h]
  have hplace : p.2 * rowBytes ctx + p.1 / 8 = v * rowBytes ctx + u / 8 ∧ p.1 % 8 = u % 8 ↔ p = (u, v) := by
    rw [Prod.ext_iff]
    cases ctx <;> simp only [regionWidth, rowBytes] at hp hu ⊢ <;> omega
  rw [codeBitAt, hbit, ← hplace, pixelBits]
  have hshift : 8 - 1 - p.1 % 8 ≤ 7 - u % 8 ∧ 7 - u % 8 - (8 - 1 - p.1 % 8) = 0 ↔ p.1 % 8 = u % 8 := by omega
  rw [← hshift]
  tauto

/-- Settles O30: an auto block is hires under the override, and the one bit of each pixel is its code, which compares the
pixel with the foreground. -/
theorem foregroundOverrideEncodesTheForeground : Obligations.ForegroundOverrideEncodesTheForeground := by
  intro ctx x y s hfg hmc hfmt hin
  have hwidth : encodeWidth s .auto x.toNat y.toNat ctx = .hires := autoWidth_override hfg ..
  refine ⟨_, exec_encode_done (configOk_of_no_pair hmc) (by decide) (by simp) hfmt hin, ?_, fun u v hu hv => ?_⟩
  · rw [encodeBody, hwidth]
    rfl
  · have hbuf : (encodeBody ctx .auto x.toNat y.toNat s).buf = (scanBlock s x.toNat y.toNat ctx .hires).2 := by
      rw [encodeBody, hwidth]
      rfl
    have hmem : (u, v) ∈ scanOrder ctx .hires := (mem_scanOrder_hires ctx _).2 ⟨hu, hv⟩
    obtain ⟨-, -, -, hj⟩ := scanOrder_bounds ctx .hires _ hmem
    obtain ⟨m, hm⟩ := List.mem_iff_getElem?.1 hmem
    rw [hbuf, Bool.eq_iff_iff, getLsbD_scanBlock s _ _ ctx .hires hj (by omega), decide_eq_true_iff]
    constructor
    · rintro ⟨n, p, hn, hbit⟩
      obtain ⟨hp, -⟩ := (mem_scanOrder_hires ctx p).1 (List.mem_of_getElem? hn)
      rw [codeAt_override hfg, codeBitAt_hires_iff hp hu] at hbit
      obtain ⟨rfl, hpixel⟩ := hbit
      exact hpixel
    · intro hpixel
      refine ⟨m, (u, v), hm, ?_⟩
      rw [codeAt_override hfg, codeBitAt_hires_iff hu hu]
      exact ⟨rfl, hpixel⟩

end Sys2Proof.Machine
end

section
/-! The order in which the scan of a block takes its pixels (R134, R135). -/

namespace Sys2Proof.Machine

/-- Entry `i` of row `y` of a list of rows that are equally long. -/
theorem getElem?_flatMap_row {α β : Type} {g : α → List β} {n : Nat} (rows : List α)
    (hlen : ∀ a ∈ rows, (g a).length = n) (y : Nat) {i : Nat} (hi : i < n) :
    (rows.flatMap g)[y * n + i]? = rows[y]?.bind fun a => (g a)[i]? := by
  induction rows generalizing y with
  | nil => rfl
  | cons a rest ih =>
    obtain ⟨ha, hrest⟩ := List.forall_mem_cons.1 hlen
    rw [List.flatMap_cons]
    cases y with
    | zero => simp [List.getElem?_append_left, ha, hi]
    | succ y =>
      have hskip : (y + 1) * n + i = (g a).length + (y * n + i) := by rw [ha, Nat.succ_mul]; omega
      rw [hskip, List.getElem?_append_right (Nat.le_add_right ..), Nat.add_sub_cancel_left,
        List.getElem?_cons_succ, ih hrest]

theorem getElem?_scanOrder_row {ctx : Context} {width : PixelWidth} {i y : Nat}
    (hi : i < regionWidth ctx / pixelBits width) (hy : y < regionHeight ctx) :
    (scanOrder ctx width)[y * (regionWidth ctx / pixelBits width) + i]? = some (i * pixelBits width, y) := by
  rw [scanOrder, getElem?_flatMap_row _ (by simp) y hi, List.getElem?_range hy]
  simp [hi]

theorem length_scanOrder (ctx : Context) (width : PixelWidth) :
    (scanOrder ctx width).length = regionHeight ctx * (regionWidth ctx / pixelBits width) := by
  simp [scanOrder, List.length_flatMap]

/-- Settles O28: each row of the region is one row of the list. -/
theorem scanOrderIsRowByRow : Obligations.ScanOrderIsRowByRow :=
  fun ctx width _ _ hi hy => ⟨getElem?_scanOrder_row hi hy, length_scanOrder ctx width⟩

/-- The column that a pixel stands in is a multiple of its width (R134). -/
theorem mem_scanOrder (ctx : Context) (width : PixelWidth) (p : Nat × Nat) :
    p ∈ scanOrder ctx width ↔ pixelBits width ∣ p.1 ∧ p.1 < regionWidth ctx ∧ p.2 < regionHeight ctx := by
  obtain ⟨x, y⟩ := p
  have hbits : pixelBits width ∣ regionWidth ctx := by cases ctx <;> cases width <;> decide
  simp only [scanOrder, List.mem_flatMap, List.mem_map, List.mem_range, Prod.mk.injEq, Nat.lt_div_iff_mul_lt' hbits]
  constructor
  · rintro ⟨_, hy, i, hi, rfl, rfl⟩
    exact ⟨Nat.dvd_mul_left .., Nat.mul_comm i _ ▸ hi, hy⟩
  · rintro ⟨⟨i, rfl⟩, hi, hy⟩
    exact ⟨y, hy, i, hi, Nat.mul_comm .., rfl⟩

/-- A pixel's offset fixes its position in the scan. -/
theorem index_of_getElem?_scanOrder {ctx : Context} {width : PixelWidth} {n : Nat} {p : Nat × Nat}
    (h : (scanOrder ctx width)[n]? = some p) :
    n = p.2 * (regionWidth ctx / pixelBits width) + p.1 / pixelBits width := by
  have hrow : 0 < regionWidth ctx / pixelBits width := by cases ctx <;> cases width <;> decide
  have hpos : 0 < pixelBits width := by cases width <;> decide
  obtain ⟨hn, -⟩ := List.getElem?_eq_some_iff.1 h
  rw [length_scanOrder, Nat.mul_comm] at hn
  have hentry := getElem?_scanOrder_row (Nat.mod_lt n hrow) (Nat.div_lt_of_lt_mul hn)
  rw [Nat.div_add_mod', h, Option.some.injEq] at hentry
  rw [hentry, Nat.mul_div_cancel _ hpos, Nat.div_add_mod']

end Sys2Proof.Machine
end

section
/-! The width at which `ENCODE` encodes: the mode detector answers its closed form (R150, R152), and `ENCODE` writes the
flags of the width that it asks for or chooses (R131). -/

namespace Sys2Proof.Machine

theorem detectorBackground_eq (s : State) (x0 y0 : Nat) : detectorBackground s x0 y0 = regionBackground s x0 y0 := by
  have hbg := congrArg RoleFile.bg (roleDefaults_eq s)
  simp only [roleDefaults] at hbg
  rw [detectorBackground, regionBackground, hbg]
  split_ifs <;> rfl

theorem regionWidth_even (ctx : Context) : regionWidth ctx = 2 * (regionWidth ctx / 2) := by cases ctx <;> rfl

/-- A region's rows consist of whole pairs, so that the pairs hold every pixel. -/
theorem regionHolds_iff_pairs (s : State) (ctx : Context) (x0 y0 : Nat) (v : Byte) :
    regionHolds s ctx x0 y0 v ↔
      ∃ p ∈ regionPairs s x0 y0 (regionWidth ctx) (regionHeight ctx), p.1 = v ∨ p.2 = v := by
  have heven := regionWidth_even ctx
  simp only [mem_regionPairs]
  constructor
  · rintro ⟨x, y, hx, hy, hv⟩
    refine ⟨_, ⟨x / 2, y, by omega, hy, rfl⟩, ?_⟩
    rcases Nat.mod_two_eq_zero_or_one x with hmod | hmod
    · have hleft : x0 + 2 * (x / 2) = x0 + x := by omega
      exact .inl (hleft ▸ hv)
    · have hright : x0 + 2 * (x / 2) + 1 = x0 + x := by omega
      exact .inr (hright ▸ hv)
  · rintro ⟨_, ⟨i, y, hi, hy, rfl⟩, hv | hv⟩
    · exact ⟨2 * i, y, by omega, hy, hv⟩
    · exact ⟨2 * i + 1, y, by omega, hy, hv⟩

theorem pair_differs_iff (s : State) (ctx : Context) (x0 y0 : Nat) :
    (∃ p ∈ regionPairs s x0 y0 (regionWidth ctx) (regionHeight ctx), p.1 ≠ p.2) ↔
      ∃ i y, 2 * i + 1 < regionWidth ctx ∧ y < regionHeight ctx ∧
        rasterRead s (x0 + 2 * i) (y0 + y) ≠ rasterRead s (x0 + 2 * i + 1) (y0 + y) := by
  have heven := regionWidth_even ctx
  have hpair : ∀ i, i < regionWidth ctx / 2 ↔ 2 * i + 1 < regionWidth ctx := fun i => by omega
  simp only [mem_regionPairs, hpair]
  constructor
  · rintro ⟨_, ⟨i, y, hi, hy, rfl⟩, hne⟩
    exact ⟨i, y, hi, hy, hne⟩
  · rintro ⟨i, y, hi, hy, hne⟩
    exact ⟨_, ⟨i, y, hi, hy, rfl⟩, hne⟩

/-- The detector answers the closed form of R152: of a pair that differs, one pixel is not the background. -/
theorem detectHires_iff (s : State) (ctx : Context) (x0 y0 : Nat) :
    detectHires s x0 y0 (regionWidth ctx) (regionHeight ctx) = true ↔ hiresByClosedForm s ctx x0 y0 := by
  rw [detectHires, scanPairs_iff _ _ _ _ (by simp), detectorBackground_eq, hiresByClosedForm, ← pair_differs_iff]
  have hcounted : ∀ u, counted (regionBackground s x0 y0) none
      (regionPairs s x0 y0 (regionWidth ctx) (regionHeight ctx)) u ↔
        u ≠ regionBackground s x0 y0 ∧ regionHolds s ctx x0 y0 u := by
    intro u
    rw [regionHolds_iff_pairs, counted]
    simp
  simp only [hcounted, Bool.false_eq_true, false_or]
  constructor
  · rintro ⟨⟨p, hp, hne⟩, hunique⟩
    refine ⟨?_, p, hp, hne⟩
    have hfst := (regionHolds_iff_pairs s ctx x0 y0 p.1).2 ⟨p, hp, .inl rfl⟩
    have hsnd := (regionHolds_iff_pairs s ctx x0 y0 p.2).2 ⟨p, hp, .inr rfl⟩
    by_cases hbg : p.1 = regionBackground s x0 y0
    · have hfg : p.2 ≠ regionBackground s x0 y0 := fun h => hne (hbg.trans h.symm)
      exact ⟨p.2, hfg, hsnd, fun u hu hheld => hunique u p.2 ⟨hu, hheld⟩ ⟨hfg, hsnd⟩⟩
    · exact ⟨p.1, hbg, hfst, fun u hu hheld => hunique u p.1 ⟨hu, hheld⟩ ⟨hbg, hfst⟩⟩
  · rintro ⟨⟨v, -, -, hunique⟩, hdiffer⟩
    exact ⟨hdiffer, fun u w ⟨hu, huheld⟩ ⟨hw, hwheld⟩ => (hunique u hu huheld).trans (hunique w hw hwheld).symm⟩

theorem autoWidth_eq_multicolor_iff (s : State) (x0 y0 : Nat) (ctx : Context) :
    autoWidth s x0 y0 ctx = .multicolor ↔
      s.cfgFg.getLsbD 8 = false ∧ (s.cfgMc.getLsbD 16 = true ∨ s.ctrl.getLsbD 0 = true) ∧
        ¬ hiresByClosedForm s ctx x0 y0 := by
  rw [autoWidth, effectiveMode_eq, ← detectHires_iff, ← and_assoc]
  by_cases hmode : s.cfgFg.getLsbD 8 = false ∧ (s.cfgMc.getLsbD 16 = true ∨ s.ctrl.getLsbD 0 = true)
  · rw [if_pos hmode, and_iff_right hmode]
    simp
  · rw [if_neg hmode]
    exact iff_of_false PixelWidth.noConfusion fun h => hmode h.1

theorem encodeWidth_eq_multicolor_iff (s : State) {wsel : WidthSel} (hwsel : wsel ≠ .reserved) (x0 y0 : Nat)
    (ctx : Context) :
    encodeWidth s wsel x0 y0 ctx = .multicolor ↔
      wsel = .multicolor ∨
      (wsel = .auto ∧ s.cfgFg.getLsbD 8 = false ∧ (s.cfgMc.getLsbD 16 = true ∨ s.ctrl.getLsbD 0 = true) ∧
        ¬ hiresByClosedForm s ctx x0 y0) := by
  cases wsel with
  | auto => simp [encodeWidth, autoWidth_eq_multicolor_iff]
  | hires => simp [encodeWidth]
  | multicolor => simp [encodeWidth]
  | reserved => exact absurd rfl hwsel

/-! ### What `ENCODE` leaves (R131) -/

@[simp] theorem encodeBody_status (ctx : Context) (wsel : WidthSel) (x0 y0 : Nat) (s : State) :
    (encodeBody ctx wsel x0 y0 s).status =
      blockFlags s.status ctx (encodeWidth s wsel x0 y0 ctx)
        (scanBlock s x0 y0 ctx (encodeWidth s wsel x0 y0 ctx)).2 := rfl

@[simp] theorem encodeBody_buf (ctx : Context) (wsel : WidthSel) (x0 y0 : Nat) (s : State) :
    (encodeBody ctx wsel x0 y0 s).buf = (scanBlock s x0 y0 ctx (encodeWidth s wsel x0 y0 ctx)).2 := rfl

@[simp] theorem encodeBody_roles (ctx : Context) (wsel : WidthSel) (x0 y0 : Nat) (s : State) :
    (encodeBody ctx wsel x0 y0 s).roles = (scanBlock s x0 y0 ctx (encodeWidth s wsel x0 y0 ctx)).1 := rfl

@[simp] theorem encodeBody_result (ctx : Context) (wsel : WidthSel) (x0 y0 : Nat) (s : State) :
    (encodeBody ctx wsel x0 y0 s).result = encodeResult (encodeBody ctx wsel x0 y0 s).status := rfl

@[simp] theorem blockFlags_blkBlank (st : Status) (ctx : Context) (w : PixelWidth) (b : Vector Byte 64) :
    (blockFlags st ctx w b).blkBlank = blankBlock ctx b := rfl

@[simp] theorem blockFlags_blkMc (st : Status) (ctx : Context) (w : PixelWidth) (b : Vector Byte 64) :
    (blockFlags st ctx w b).blkMc = (w == .multicolor) := rfl

/-- `BLK_MC` gives the width back. -/
theorem eq_of_eq_width_of_blkMc {width w : PixelWidth} (h : width = if w == .multicolor then .multicolor else .hires) :
    width = w := by
  cases w <;> exact h

theorem encodeResult_fields (st : Status) :
    (encodeResult st).getLsbD 0 = st.blkMc ∧ (encodeResult st).getLsbD 1 = st.blkBlank ∧
      (encodeResult st).extractLsb' 2 30 = 0#30 := by
  have hfields : ∀ blank mc : Bool, ((BitVec.ofBool blank ++ BitVec.ofBool mc).setWidth 32).getLsbD 0 = mc ∧
      ((BitVec.ofBool blank ++ BitVec.ofBool mc).setWidth 32).getLsbD 1 = blank ∧
      ((BitVec.ofBool blank ++ BitVec.ofBool mc).setWidth 32).extractLsb' 2 30 = 0#30 := by decide
  exact hfields st.blkBlank st.blkMc

/-- Settles O26: the checks pass, and the body writes the fields that are named. -/
theorem encodeCompletesAtTheChosenWidth : Obligations.EncodeCompletesAtTheChosenWidth := by
  intro ctx wsel x y s hconfig hwsel hwidth hfmt hin
  refine ⟨_, exec_encode_done hconfig hwsel hwidth hfmt hin, ?_, ?_, ?_, rfl, rfl, rfl, beq_iff_eq, ?_,
    encodeResult_fields _⟩
  · constructor <;> rfl
  · constructor <;> rfl
  · constructor <;> rfl
  · rw [encodeBody_status, blockFlags_blkMc, beq_iff_eq, encodeWidth_eq_multicolor_iff s hwsel]

end Sys2Proof.Machine
end

section
/-! The codes in the buffer: each scanned pixel's code fills its own place, and nothing else stands in the data bytes
(R132, R73, R74, R133, R139). -/

namespace Sys2Proof.Machine

theorem foldl_scanPixel_roles (s : State) (x0 y0 : Nat) (ctx : Context) (width : PixelWidth) (pixels : List (Nat × Nat))
    (f : RoleFile) (b : Vector Byte 64) :
    (pixels.foldl (scanPixel s x0 y0 ctx width) (f, b)).1 = rolesAfter s x0 y0 ctx width f pixels := by
  induction pixels generalizing f b with
  | nil => rfl
  | cons p rest ih => rw [List.foldl_cons, scanPixel, ih, rolesAfter_cons]

theorem scanBlock_roles (s : State) (x0 y0 : Nat) (ctx : Context) (width : PixelWidth) :
    (scanBlock s x0 y0 ctx width).1 = rolesBefore s x0 y0 ctx width (scanOrder ctx width).length := by
  rw [scanBlock, foldl_scanPixel_roles, rolesBefore_eq_rolesAfter, List.take_length]

/-- The scan writes data bytes only: the pad, and the bytes above a character's, are as the scan found them (R133). -/
theorem bufByte_scanBlock_above (s : State) (x0 y0 : Nat) (ctx : Context) (width : PixelWidth) {j : Nat}
    (hj : dataBytes ctx ≤ j) :
    bufByte (scanBlock s x0 y0 ctx width).2 j = bufByte (freshBuffer ctx s.cfgSprPad s.buf) j := by
  have hdata : dataBytes ctx < 64 := by cases ctx <;> decide
  have hplace : ∀ p ∈ scanOrder ctx width, p.2 * rowBytes ctx + p.1 / 8 < dataBytes ctx := fun p hp => by
    obtain ⟨-, -, -, hbyte⟩ := scanOrder_bounds ctx width p hp
    exact hbyte
  have hinBuffer : ∀ p ∈ scanOrder ctx width, p.2 * rowBytes ctx + p.1 / 8 < 64 := fun p hp => (hplace p hp).trans hdata
  refine BitVec.eq_of_getLsbD_eq fun i hi => ?_
  rw [Bool.eq_iff_iff, scanBlock, getLsbD_scanPixels s x0 y0 ctx width _ hinBuffer _ _ j hi, or_iff_left]
  rintro ⟨n, p, hn, hbyte, -⟩
  exact (hbyte ▸ hplace p (List.mem_of_getElem? hn)).not_ge hj

theorem bufByte_scanBlock_pad (s : State) (x0 y0 : Nat) (width : PixelWidth) :
    bufByte (scanBlock s x0 y0 .sprite width).2 63 = s.cfgSprPad := by
  rw [bufByte_scanBlock_above s x0 y0 .sprite width (by decide), bufByte_freshBuffer]
  rfl

/-- A code has no more bits than its pixel's width. -/
theorem lt_pixelBits_of_codeAt (s : State) (x0 y0 : Nat) (ctx : Context) (width : PixelWidth) (n x y : Nat) {k : Nat}
    (h : (codeAt s x0 y0 ctx width n x y).getLsbD k = true) : k < pixelBits width := by
  cases width with
  | multicolor => exact BitVec.lt_of_getLsbD h
  | hires =>
    have hle : (codeAt s x0 y0 ctx .hires n x y).toNat ≤ 1 := resolvePixel_hires_le ..
    by_contra hk
    have hbig : (codeAt s x0 y0 ctx .hires n x y).toNat < 2 ^ k :=
      hle.trans_lt (Nat.one_lt_two_pow (by rintro rfl; exact hk (by decide)))
    rw [BitVec.getLsbD, Nat.testBit_lt_two_pow hbig] at h
    cases h

/-- No two pixels share a bit: the byte and the bit fix the pixel and the bit of its code. -/
theorem pixel_eq_of_place_eq {ctx : Context} {width : PixelWidth} {p q : Nat × Nat} {i k : Nat}
    (hp : p ∈ scanOrder ctx width) (hq : q ∈ scanOrder ctx width)
    (hbyte : q.2 * rowBytes ctx + q.1 / 8 = p.2 * rowBytes ctx + p.1 / 8)
    (hi : i < pixelBits width) (hk : k < pixelBits width)
    (hbit : 8 - pixelBits width - q.1 % 8 + k = 8 - pixelBits width - p.1 % 8 + i) : q = p ∧ k = i := by
  obtain ⟨hpdvd, hpx, -⟩ := (mem_scanOrder ctx width p).1 hp
  obtain ⟨hqdvd, hqx, -⟩ := (mem_scanOrder ctx width q).1 hq
  have hcolumn : q.1 % 8 = p.1 % 8 ∧ k = i := by
    cases width <;> simp only [pixelBits] at * <;> omega
  rw [Prod.ext_iff]
  cases ctx <;> simp only [regionWidth, rowBytes] at * <;> omega

/-- The field of each scanned pixel holds its code. -/
theorem extractLsb'_scanBlock (s : State) (x0 y0 : Nat) {ctx : Context} {width : PixelWidth} {n : Nat} {p : Nat × Nat}
    (hn : (scanOrder ctx width)[n]? = some p) :
    (bufByte (scanBlock s x0 y0 ctx width).2 (p.2 * rowBytes ctx + p.1 / 8)).extractLsb'
        (8 - pixelBits width - p.1 % 8) (pixelBits width) =
      (codeAt s x0 y0 ctx width n p.1 p.2).setWidth (pixelBits width) := by
  have hp := List.mem_of_getElem? hn
  obtain ⟨-, -, hfits, hdata⟩ := scanOrder_bounds ctx width p hp
  refine BitVec.eq_of_getLsbD_eq fun i hi => ?_
  rw [Bool.eq_iff_iff, BitVec.getLsbD_extractLsb', BitVec.getLsbD_setWidth]
  simp only [hi, decide_true, Bool.true_and]
  rw [getLsbD_scanBlock s x0 y0 ctx width hdata (by omega)]
  constructor
  · rintro ⟨m, q, hm, hbyte, hle, hcode⟩
    have hlt := lt_pixelBits_of_codeAt s x0 y0 ctx width m q.1 q.2 hcode
    obtain ⟨rfl, hk⟩ := pixel_eq_of_place_eq hp (List.mem_of_getElem? hm) hbyte hi hlt (Nat.add_sub_of_le hle)
    rwa [hk, (index_of_getElem?_scanOrder hm).trans (index_of_getElem?_scanOrder hn).symm] at hcode
  · intro hcode
    exact ⟨n, p, hn, rfl, Nat.le_add_right .., by rwa [Nat.add_sub_cancel_left]⟩

/-- Settles O27: the scan packs each code at its own place, and writes no byte above the data bytes. -/
theorem encodePacksTheResolvedCodes : Obligations.EncodePacksTheResolvedCodes := by
  intro ctx wsel x y s hconfig hwsel hwidth hfmt hin
  refine ⟨_, exec_encode_done hconfig hwsel hwidth hfmt hin, fun width hw => ?_, ?_, ?_⟩
  · obtain rfl := eq_of_eq_width_of_blkMc hw
    exact ⟨fun n p hn => extractLsb'_scanBlock s _ _ hn, scanBlock_roles ..⟩
  · rintro rfl
    exact bufByte_scanBlock_pad ..
  · rintro rfl j hj
    rw [encodeBody_buf, bufByte_scanBlock_above _ _ _ _ _ hj, bufByte_freshBuffer]
    exact if_neg hj.not_gt

/-- A block is blank when all its codes are 0: its data bytes have no bits but those of the codes (R139). -/
theorem blankBlock_scanBlock_iff (s : State) (x0 y0 : Nat) (ctx : Context) (width : PixelWidth) :
    blankBlock ctx (scanBlock s x0 y0 ctx width).2 = true ↔
      ∀ n p, (scanOrder ctx width)[n]? = some p → codeAt s x0 y0 ctx width n p.1 p.2 = 0#2 := by
  rw [blankBlock_iff]
  constructor
  · intro hzero n p hn
    obtain ⟨-, -, -, hdata⟩ := scanOrder_bounds ctx width p (List.mem_of_getElem? hn)
    have hfield := extractLsb'_scanBlock s x0 y0 hn
    rw [hzero _ hdata] at hfield
    refine BitVec.eq_of_getLsbD_eq fun k _ => ?_
    rw [BitVec.getLsbD_zero, ← Bool.not_eq_true]
    intro hk
    have hbit := congrArg (·.getLsbD k) hfield
    simp [hk, lt_pixelBits_of_codeAt _ _ _ _ _ _ _ _ hk] at hbit
  · intro hcodes j hj
    refine BitVec.eq_of_getLsbD_eq fun i hi => ?_
    rw [BitVec.getLsbD_zero, ← Bool.not_eq_true, getLsbD_scanBlock s x0 y0 ctx width hj hi]
    rintro ⟨n, p, hn, -, -, hbit⟩
    rw [hcodes n p hn, BitVec.getLsbD_zero] at hbit
    cases hbit

/-- Settles O29: `BLK_BLANK` looks at the data bytes, which the codes alone fill. -/
theorem blankExactlyWhenEveryCodeIsZero : Obligations.BlankExactlyWhenEveryCodeIsZero := by
  intro ctx wsel x y s hconfig hwsel hwidth hfmt hin
  refine ⟨_, exec_encode_done hconfig hwsel hwidth hfmt hin, blankBlock_iff .., fun width hw => ?_⟩
  obtain rfl := eq_of_eq_width_of_blkMc hw
  exact blankBlock_scanBlock_iff ..

end Sys2Proof.Machine
end

section
/-! What the block of an `ENCODE` depends on: the configuration and the pixels that the scan resolves (R134, R136). -/

namespace Sys2Proof.Machine

/-- Two states in which the scan of a block reads the same: the configuration of the roles, the pad, and the pixels that it
resolves, from `(x0, y0)` on. -/
structure SameScanInputs (s u : State) (x0 y0 : Nat) (ctx : Context) (width : PixelWidth) : Prop where
  cfgBg : u.cfgBg = s.cfgBg
  cfgFg : u.cfgFg = s.cfgFg
  cfgMc : u.cfgMc = s.cfgMc
  cfgHint : u.cfgHint = s.cfgHint
  cfgSprPad : u.cfgSprPad = s.cfgSprPad
  pixels : ∀ p ∈ scanOrder ctx width, rasterRead u (x0 + p.1) (y0 + p.2) = rasterRead s (x0 + p.1) (y0 + p.2)

/-- The scan depends on its inputs and on what the buffer held before. -/
theorem SameScanInputs.scanBlock_eq {s u : State} {x0 y0 : Nat} {ctx : Context} {width : PixelWidth}
    (h : SameScanInputs s u x0 y0 ctx width) :
    scanBlock u x0 y0 ctx width = scanBlock { s with buf := u.buf } x0 y0 ctx width := by
  have hroles : roleDefaults u = roleDefaults s := by
    rw [roleDefaults_eq, roleDefaults_eq, h.cfgBg, h.cfgFg, h.cfgMc, h.cfgHint]
  have hforeground : foreground u = foreground s := congrArg optionOf h.cfgFg
  rw [scanBlock, hroles, h.cfgSprPad]
  refine List.foldl_ext _ _ _ fun acc p hp => ?_
  rw [scanPixel, hforeground, h.pixels p hp]
  rfl

/-- The block does not depend on what the buffer held before: the data bytes hold codes alone, and a sprite's last byte the
pad (R132, R133). -/
theorem bufByte_scanBlock_withBuf (s : State) (b : Vector Byte 64) (x0 y0 : Nat) (ctx : Context) (width : PixelWidth)
    {j : Nat} (hj : j < blockLength ctx) :
    bufByte (scanBlock { s with buf := b } x0 y0 ctx width).2 j = bufByte (scanBlock s x0 y0 ctx width).2 j := by
  by_cases hdata : j < dataBytes ctx
  · refine BitVec.eq_of_getLsbD_eq fun i hi => ?_
    rw [Bool.eq_iff_iff, getLsbD_scanBlock _ x0 y0 ctx width hdata hi, getLsbD_scanBlock s x0 y0 ctx width hdata hi]
    rfl
  · cases ctx with
    | character => exact absurd hj hdata
    | sprite =>
      obtain rfl : j = 63 := by simp only [blockLength, dataBytes] at hj hdata; omega
      rw [bufByte_scanBlock_pad, bufByte_scanBlock_pad]

/-- The closed form looks at the region and at the background that the configuration gives (R152). -/
theorem hiresByClosedForm_congr {s u : State} {ctx : Context} {x0 y0 : Nat} (hbg : u.cfgBg = s.cfgBg)
    (hhint : u.cfgHint = s.cfgHint)
    (hpixels : ∀ a b, a < regionWidth ctx → b < regionHeight ctx →
      rasterRead u (x0 + a) (y0 + b) = rasterRead s (x0 + a) (y0 + b)) :
    hiresByClosedForm u ctx x0 y0 ↔ hiresByClosedForm s ctx x0 y0 := by
  have hcorner : rasterRead u x0 y0 = rasterRead s x0 y0 := hpixels 0 0 (by cases ctx <;> decide) (by cases ctx <;> decide)
  have hback : regionBackground u x0 y0 = regionBackground s x0 y0 := by
    rw [regionBackground, regionBackground, hbg, hhint, hcorner]
  have hholds : ∀ v, regionHolds u ctx x0 y0 v ↔ regionHolds s ctx x0 y0 v := fun v =>
    exists₂_congr fun a b => and_congr_right fun ha => and_congr_right fun hb => by rw [hpixels a b ha hb]
  rw [hiresByClosedForm, hiresByClosedForm, hback]
  simp only [hholds]
  refine and_congr_right fun _ => exists₂_congr fun i b => and_congr_right fun hi => and_congr_right fun hb => ?_
  rw [hpixels (2 * i) b (by omega) hb, Nat.add_assoc x0, hpixels (2 * i + 1) b hi hb]

theorem width_eq_of_multicolor_iff {v w : PixelWidth} (h : v = .multicolor ↔ w = .multicolor) : v = w := by
  cases v <;> cases w <;> simp at h ⊢

theorem blankBlock_congr {ctx : Context} {b c : Vector Byte 64}
    (h : ∀ j, j < dataBytes ctx → bufByte b j = bufByte c j) : blankBlock ctx b = blankBlock ctx c := by
  rw [Bool.eq_iff_iff, blankBlock_iff, blankBlock_iff]
  exact forall₂_congr fun j hj => by rw [h j hj]

/-- Settles O31: the width, the codes and the roles depend on the configuration and the region alone, and a block on
nothing else. -/
theorem encodeIsDeterministic : Obligations.EncodeIsDeterministic := by
  intro ctx wsel x y s u hconfig hwsel hwidth hfmt hin hctrl hbg hfg hmc hhint hpad hdim hfmtEq hpixels
  have hsameWidth : encodeWidth u wsel x.toNat y.toNat ctx = encodeWidth s wsel x.toNat y.toNat ctx := by
    apply width_eq_of_multicolor_iff
    rw [encodeWidth_eq_multicolor_iff u hwsel, encodeWidth_eq_multicolor_iff s hwsel, hctrl, hfg, hmc,
      hiresByClosedForm_congr hbg hhint hpixels]
  have hinputs : SameScanInputs s u x.toNat y.toNat ctx (encodeWidth s wsel x.toNat y.toNat ctx) :=
    ⟨hbg, hfg, hmc, hhint, hpad, fun p hp => by
      obtain ⟨-, hx, hy⟩ := (mem_scanOrder _ _ p).1 hp
      exact hpixels p.1 p.2 hx hy⟩
  have hbytes : ∀ j, j < blockLength ctx →
      bufByte (encodeBody ctx wsel x.toNat y.toNat u).buf j = bufByte (encodeBody ctx wsel x.toNat y.toNat s).buf j := by
    intro j hj
    rw [encodeBody_buf, encodeBody_buf, hsameWidth, hinputs.scanBlock_eq, bufByte_scanBlock_withBuf _ _ _ _ _ _ hj]
  have hroles : (encodeBody ctx wsel x.toNat y.toNat u).roles = (encodeBody ctx wsel x.toNat y.toNat s).roles := by
    rw [encodeBody_roles, encodeBody_roles, hsameWidth, hinputs.scanBlock_eq, scanBlock_roles, scanBlock_roles]
    rfl
  have hmulticolor : (encodeBody ctx wsel x.toNat y.toNat u).status.blkMc =
      (encodeBody ctx wsel x.toNat y.toNat s).status.blkMc := by
    rw [encodeBody_status, encodeBody_status, blockFlags_blkMc, blockFlags_blkMc, hsameWidth]
  have hblank : (encodeBody ctx wsel x.toNat y.toNat u).status.blkBlank =
      (encodeBody ctx wsel x.toNat y.toNat s).status.blkBlank := by
    have hlength : dataBytes ctx ≤ blockLength ctx := by cases ctx <;> decide
    exact blankBlock_congr fun j hj => hbytes j (hj.trans_le hlength)
  refine ⟨_, _, exec_encode_done hconfig hwsel hwidth hfmt hin, exec_encode_done ?_ hwsel ?_ ?_ ?_, hbytes, hroles, ?_,
    hmulticolor, hblank⟩
  · rwa [configOk, hfg, hmc]
  · rwa [hfg]
  · rwa [hfmtEq]
  · rwa [regionInside, hdim]
  · rw [encodeBody_result, encodeBody_result, encodeResult, encodeResult, hmulticolor, hblank]

/-- Settles O32: at multicolor width the scan resolves left pixels alone, and the width is not the detector's. -/
theorem rightPixelsDoNotCountInMulticolor : Obligations.RightPixelsDoNotCountInMulticolor := by
  intro ctx x y s m hfg hfmt hin hpixels
  have hconfig := configOk_of_no_foreground hfg
  have hwidth : ¬ (WidthSel.multicolor = .multicolor ∧ s.cfgFg.getLsbD 8 = true) :=
    fun ⟨_, hset⟩ => absurd (hfg.symm.trans hset) (by decide)
  have hinputs : SameScanInputs s { s with raster := m } x.toNat y.toNat ctx .multicolor :=
    ⟨rfl, rfl, rfl, rfl, rfl, fun p hp => by
      obtain ⟨⟨i, hi⟩, hx, hy⟩ := (mem_scanOrder _ _ p).1 hp
      rw [hi] at hx ⊢
      exact hpixels i p.2 hx hy⟩
  refine ⟨_, exec_encode_done hconfig (by decide) hwidth hfmt hin, ?_⟩
  rw [exec_encode_done (s := { s with raster := m }) hconfig (by decide) hwidth hfmt hin]
  simp only [encodeBody, encodeBlock, encodeWidth, hinputs.scanBlock_eq]
  rfl

end Sys2Proof.Machine
end

section
/-! The command `DETECT`: past its checks it answers the closed form (R150, R152), which three values or one value in the
region rule out (R153). -/

namespace Sys2Proof.Machine

/-- `DETECT` past its checks: it answers the detector and changes `RESULT` only (R150). -/
theorem exec_detect_done {ctx : Context} {x y : BitVec 12} {s : State} (hconfig : configOk s) (hfmt : s.rasterFmt = 1#1)
    (hin : regionInside s ctx x.toNat y.toNat) :
    exec (.detect ctx x y) s =
      .next { s with
        result := if detectHires s x.toNat y.toNat (regionWidth ctx) (regionHeight ctx) then 1#32 else 0#32 } :=
  runCommand_done _ _ _ _ (by simp [configCheck_passes hconfig, formatCheck_passes hfmt, regionCheck_passes hin])

theorem exec_detect_of_not_hires {ctx : Context} {x y : BitVec 12} {s : State} (hconfig : configOk s)
    (hfmt : s.rasterFmt = 1#1) (hin : regionInside s ctx x.toNat y.toNat)
    (hno : ¬ hiresByClosedForm s ctx x.toNat y.toNat) :
    exec (.detect ctx x y) s = .next { s with result := 0#32 } := by
  rw [exec_detect_done hconfig hfmt hin, if_neg (mt (detectHires_iff ..).1 hno)]

/-- Settles O22: past its checks the command answers the scan, and the scan answers the closed form. -/
theorem detectAnswersTheClosedForm : Obligations.DetectAnswersTheClosedForm := by
  intro ctx x y s hconfig hfmt hin
  refine ⟨fun hyes => ?_, exec_detect_of_not_hires hconfig hfmt hin⟩
  rw [exec_detect_done hconfig hfmt hin, if_pos ((detectHires_iff ..).2 hyes)]

/-- Of three values at most one is the background, and the closed form allows one other value only. -/
theorem not_hires_of_three_values {s : State} {ctx : Context} {x0 y0 : Nat} {u v w : Byte} (huv : u ≠ v) (hvw : v ≠ w)
    (huw : u ≠ w) (hu : regionHolds s ctx x0 y0 u) (hv : regionHolds s ctx x0 y0 v) (hw : regionHolds s ctx x0 y0 w) :
    ¬ hiresByClosedForm s ctx x0 y0 := by
  rintro ⟨⟨fg, -, -, honly⟩, -⟩
  have honeIsBack : ∀ a b, a ≠ b → regionHolds s ctx x0 y0 a → regionHolds s ctx x0 y0 b →
      a = regionBackground s x0 y0 ∨ b = regionBackground s x0 y0 := fun a b hab ha hb =>
    or_iff_not_imp_left.2 fun haFg => by_contra fun hbFg => hab ((honly a haFg ha).trans (honly b hbFg hb).symm)
  rcases honeIsBack u v huv hu hv with hback | hback
  · rcases honeIsBack v w hvw hv hw with h | h
    · exact huv (hback.trans h.symm)
    · exact huw (hback.trans h.symm)
  · rcases honeIsBack u w huw hu hw with h | h
    · exact huv (h.trans hback.symm)
    · exact hvw (hback.trans h.symm)

/-- In a region of one value no pair differs. -/
theorem not_hires_of_one_value {s : State} {ctx : Context} {x0 y0 : Nat} {u : Byte}
    (hall : ∀ v, regionHolds s ctx x0 y0 v → v = u) : ¬ hiresByClosedForm s ctx x0 y0 := by
  rintro ⟨-, i, y, hi, hy, hdiffer⟩
  have hleft := hall _ ⟨2 * i, y, by omega, hy, rfl⟩
  have hright := hall _ ⟨2 * i + 1, y, hi, hy, rfl⟩
  exact hdiffer (hleft.trans hright.symm)

/-- Settles O23: neither region meets the closed form. -/
theorem detectRejectsThreeColoursAndOneColour : Obligations.DetectRejectsThreeColoursAndOneColour := by
  intro ctx x y s hconfig hfmt hin
  exact ⟨fun _ _ _ huv hvw huw hu hv hw =>
      exec_detect_of_not_hires hconfig hfmt hin (not_hires_of_three_values huv hvw huw hu hv hw),
    fun _ hall => exec_detect_of_not_hires hconfig hfmt hin (not_hires_of_one_value hall)⟩

end Sys2Proof.Machine
end

section
/-! The commands `LOOKUP_INSERT` (R160 to R164) and `PROMOTE_EMPTY` (R166 to R168): what each case of the operation leaves is
said once, and the statements of spec/43_dictionary.md follow from the cases. -/

namespace Sys2Proof.Machine

/-! ### The dictionary search (R160, R161) -/

/-- The search answers `i` exactly when `i` is the first index of the block. -/
theorem findBlock_eq_some_iff (b : Block) (d : List Block) (i : Nat) :
    findBlock b d = some i ↔ d[i]? = some b ∧ ∀ j, j < i → d[j]? ≠ some b := by
  refine ⟨findBlock_some b d i, fun ⟨hi, hfirst⟩ => ?_⟩
  cases h : findBlock b d with
  | none => exact absurd (List.mem_of_getElem? hi) ((findBlock_none b d).1 h)
  | some k =>
    obtain ⟨hk, hkfirst⟩ := findBlock_some b d k h
    rcases Nat.lt_trichotomy k i with hlt | rfl | hlt
    · exact absurd hk (hfirst k hlt)
    · rfl
    · exact absurd hi (hkfirst i hlt)

theorem exists_findBlock_of_mem {b : Block} {d : List Block} (h : b ∈ d) : ∃ i, findBlock b d = some i :=
  Option.ne_none_iff_exists'.1 fun hnone => (findBlock_none b d).1 hnone h

/-- A block that the dictionary does not have is found where it is appended. -/
theorem findBlock_append_self {b : Block} {d : List Block} (h : b ∉ d) : findBlock b (d ++ [b]) = some d.length := by
  refine (findBlock_eq_some_iff ..).2 ⟨List.getElem?_concat_length, fun j hj hb => h ?_⟩
  rw [List.getElem?_append_left hj] at hb
  exact List.mem_of_getElem? hb

theorem lookupOrInsert_of_found {b : Block} {s : State} {i : Nat} (h : findBlock b s.dict = some i) (cell : Word) :
    lookupOrInsert b cell s = .done (BitVec.ofNat 16 i, false) (setNewEntry false s) := by
  simp only [lookupOrInsert, h]

theorem lookupOrInsert_of_room {b : Block} {s : State} (hb : b ∉ s.dict) (hroom : s.dict.length ≠ s.dictCap) (cell : Word) :
    lookupOrInsert b cell s = .done (BitVec.ofNat 16 s.dict.length, true) (appendBlock b s) := by
  simp only [lookupOrInsert, (findBlock_none b s.dict).2 hb, if_neg hroom]

theorem lookupOrInsert_of_full {b : Block} {s : State} (hb : b ∉ s.dict) (hfull : s.dict.length = s.dictCap) (cell : Word) :
    lookupOrInsert b cell s = .raised .capacity cell s := by
  simp only [lookupOrInsert, (findBlock_none b s.dict).2 hb, if_pos hfull]

/-! ### The value of an insertion (R160) -/

theorem insertionResult_ofNat {i : Nat} (hi : i < 65536) (isNew : Bool) :
    insertionResult (BitVec.ofNat 16 i) isNew = BitVec.ofNat 32 ((if isNew then 65536 else 0) + i) := by
  rw [insertionResult_eq, BitVec.toNat_ofNat, Nat.mod_eq_of_lt hi]

theorem extractLsb'_insertionResult (i : Index) (isNew : Bool) : (insertionResult i isNew).extractLsb' 0 16 = i := by
  have hi := i.isLt
  apply BitVec.eq_of_toNat_eq
  rw [toNat_field, insertionResult_eq, BitVec.toNat_ofNat]
  cases isNew <;> simp only [Bool.false_eq_true, if_true, if_false] <;> omega

/-! ### `LOOKUP_INSERT` past its check, by what the insertion answers (R160) -/

variable {s : State}

theorem sequenceCheck_passes (hv : s.status.blkV = true) (hchar : s.status.blkSpr = false) :
    (sequenceCheck s).fails = false := by
  rw [← Bool.not_eq_true, sequenceCheck_fails, hv, hchar]
  decide

theorem exec_lookupInsert_done {v : Index × Bool} {t : State} (hv : s.status.blkV = true) (hchar : s.status.blkSpr = false)
    (h : lookupOrInsert (bufBlock s) noCell s = .done v t) :
    exec .lookupInsert s = .next (setResult (insertionResult v.1 v.2) t) := by
  simp only [exec, execLookupInsert, h]
  exact runCommand_done _ _ _ _ (by simp [sequenceCheck_passes hv hchar])

theorem exec_lookupInsert_raised {code : FaultCode} {cell : Word} {t : State} (hv : s.status.blkV = true)
    (hchar : s.status.blkSpr = false) (h : lookupOrInsert (bufBlock s) noCell s = .raised code cell t) :
    exec .lookupInsert s = .next (raiseFault (encode .lookupInsert) code cell t) := by
  simp only [exec, execLookupInsert, h]
  exact runCommand_raised _ _ _ _ _ _ (by simp [sequenceCheck_passes hv hchar])

/-- Settles O33: the first equal index is the one that the search answers. -/
theorem lookupFindsTheFirstEqualBlock : Obligations.LookupFindsTheFirstEqualBlock := by
  intro s i hv hchar hi hget hfirst
  have hfind := (findBlock_eq_some_iff ..).2 ⟨hget, hfirst⟩
  have hvalue := insertionResult_ofNat hi false
  rw [if_neg Bool.false_ne_true, Nat.zero_add] at hvalue
  rw [exec_lookupInsert_done hv hchar (lookupOrInsert_of_found hfind noCell), hvalue]
  rfl

/-- Settles O34: the search fails and there is room, so the block is appended. -/
theorem lookupAppendsANewBlock : Obligations.LookupAppendsANewBlock := by
  intro s hv hchar hb hroom hlen
  rw [exec_lookupInsert_done hv hchar (lookupOrInsert_of_room hb hroom noCell), insertionResult_ofNat hlen]
  rfl

/-- Settles O35: the search fails and there is no room, so the insertion raises with nothing changed. -/
theorem fullDictionaryRaisesCapacityError : Obligations.FullDictionaryRaisesCapacityError := by
  intro s hv hchar hb hfull
  exact exec_lookupInsert_raised hv hchar (lookupOrInsert_of_full hb hfull noCell)

/-! ### Inserting twice (R164) -/

theorem bufBlock_congr {t : State} (h : t.buf = s.buf) : bufBlock t = bufBlock s := by simp only [bufBlock, h]

theorem lookupOrInsert_done_of_room {b : Block} (hroom : b ∈ s.dict ∨ s.dict.length < s.dictCap) (cell : Word) :
    ∃ v t, lookupOrInsert b cell s = .done v t := by
  by_cases hb : b ∈ s.dict
  · obtain ⟨i, hi⟩ := exists_findBlock_of_mem hb
    exact ⟨_, _, lookupOrInsert_of_found hi cell⟩
  · exact ⟨_, _, lookupOrInsert_of_room hb (hroom.resolve_left hb).ne cell⟩

/-- An insertion leaves the buffer as it is, and the two flags that `LOOKUP_INSERT` tests (R160, R230). -/
theorem lookupOrInsert_keeps_buffer (b : Block) (cell : Word) (s : State) :
    (lookupOrInsert b cell s).Keeps fun t =>
      t.buf = s.buf ∧ t.status.blkV = s.status.blkV ∧ t.status.blkSpr = s.status.blkSpr := by
  rcases lookupOrInsert_cases b cell s with ⟨i, -, h⟩ | ⟨-, -, h⟩ | ⟨-, -, h⟩ <;> rw [h]
  · exact ⟨rfl, rfl, rfl⟩
  · exact ⟨by decide, rfl, rfl, rfl⟩
  · exact ⟨rfl, rfl, rfl⟩

theorem lookupOrInsert_adds_at_most_one (b : Block) (cell : Word) (s : State) :
    (lookupOrInsert b cell s).Keeps fun t => s.dict.length ≤ t.dict.length ∧ t.dict.length ≤ s.dict.length + 1 := by
  rcases lookupOrInsert_cases b cell s with ⟨i, -, h⟩ | ⟨-, -, h⟩ | ⟨-, -, h⟩ <;> rw [h]
  · exact ⟨Nat.le_refl _, Nat.le_succ _⟩
  · exact ⟨by decide, Nat.le_refl _, Nat.le_succ _⟩
  · simp [Attempt.Keeps]

/-- The index that an insertion answers is the one at which a search then finds the block. The index has 16 bits, and a legal
dictionary no more entries than that (R6, R49). -/
theorem findBlock_of_lookupOrInsert_done (hs : Inv s) {b : Block} {cell : Word} {v : Index × Bool} {t : State}
    (h : lookupOrInsert b cell s = .done v t) : findBlock b t.dict = some v.1.toNat := by
  obtain ⟨hle, -⟩ := hs.dict
  obtain ⟨-, hcap, -, -⟩ := hs.caps
  rcases lookupOrInsert_cases b cell s with ⟨i, hfind, hl⟩ | ⟨-, -, hl⟩ | ⟨hb, hroom, hl⟩ <;> cases hl.symm.trans h
  · have hi : i < s.dict.length := (List.getElem?_eq_some_iff.1 (findBlock_some _ _ _ hfind).1).1
    rw [BitVec.toNat_ofNat, Nat.mod_eq_of_lt (by omega)]
    exact hfind
  · rw [BitVec.toNat_ofNat, Nat.mod_eq_of_lt (by omega)]
    exact findBlock_append_self hb

/-- Settles O37: the first insertion leaves the block where it says, and there the second one finds it. -/
theorem insertionIsIdempotent : Obligations.InsertionIsIdempotent := by
  intro s hs hv hchar hroom
  obtain ⟨v, t, hdone⟩ := lookupOrInsert_done_of_room hroom noCell
  have hfind := findBlock_of_lookupOrInsert_done hs hdone
  have hbuffer := lookupOrInsert_keeps_buffer (bufBlock s) noCell s
  have hgrowth := lookupOrInsert_adds_at_most_one (bufBlock s) noCell s
  rw [hdone] at hbuffer hgrowth
  obtain ⟨hbuf, hvalid, hspr⟩ := hbuffer
  obtain ⟨hkept, hadded⟩ := hgrowth
  have hagain := lookupOrInsert_of_found (s := setResult (insertionResult v.1 v.2) t) hfind noCell
  rw [← bufBlock_congr (t := setResult (insertionResult v.1 v.2) t) hbuf] at hagain
  refine ⟨_, _, exec_lookupInsert_done hv hchar hdone,
    exec_lookupInsert_done (hvalid.trans hv) (hspr.trans hchar) hagain, ?_, ?_, hkept, hadded, ?_, ?_⟩
  · simp only [setResult_result, extractLsb'_insertionResult, BitVec.ofNat_toNat, BitVec.setWidth_eq]
  · rw [setResult_status, setNewEntry_status]
  · rw [setResult_dict, setNewEntry_dict, setResult_dict]
  · rw [setResult_result, extractLsb'_insertionResult]
    exact (findBlock_some _ _ _ hfind).1

/-! ### `PROMOTE_EMPTY` (R166) -/

/-- `PROMOTE_EMPTY` makes no check: it always completes. -/
theorem exec_promoteEmpty (s : State) : exec .promoteEmpty s = .next (promoteEmpty s) :=
  runCommand_done (encode .promoteEmpty) [] s (promoteEmpty s) (by simp)

theorem promoteEmpty_stays {rec : Option Index} (hrec : s.emptyRec = rec) (h : rec = none ∨ rec = some 0#16) :
    promoteEmpty s = setResult (promoteResult rec false) s := by
  subst hrec
  rcases promoteEmpty_cases s with ⟨e, he, h0, -⟩ | ⟨-, hstays⟩
  · simp [he, h0] at h
  · exact hstays

theorem promoteEmpty_moves {e : Index} (he : s.emptyRec = some e) (h0 : e ≠ 0#16) :
    promoteEmpty s = setResult (promoteResult (some e) true) (moveEmptyToFront e s) := by
  rcases promoteEmpty_cases s with ⟨k, hk, -, hmoves⟩ | ⟨hstays, -⟩
  · cases hk.symm.trans he
    exact hmoves
  · simp [he, h0] at hstays

/-- Settles O39: nothing moves, and `RESULT` says whether there is an empty block. -/
theorem promotionWithNothingToMove : Obligations.PromotionWithNothingToMove := by
  intro s
  obtain ⟨hnone, hfront⟩ := promoteResult_kept
  refine ⟨fun h => ?_, fun h => ?_⟩
  · rw [exec_promoteEmpty, promoteEmpty_stays h (.inl rfl), hnone, setResult]
  · rw [exec_promoteEmpty, promoteEmpty_stays h (.inr rfl), hfront, setResult]

theorem relabel_zero (e : Index) : relabel e 0#16 = e := if_pos rfl

theorem relabel_self (e : Index) : relabel e e = 0#16 := by
  unfold relabel
  split
  · assumption
  · exact if_pos rfl

theorem relabel_other {e v : Index} (h0 : v ≠ 0#16) (he : v ≠ e) : relabel e v = v := by
  rw [relabel, if_neg h0, if_neg he]

/-- A promotion relabels the cells where they are (R166, R168). -/
theorem sparseGet?_moveEmptyToFront (e : Index) (s : State) (k : Nat) :
    sparseGet? (moveEmptyToFront e s).cells k =
      (sparseGet? s.cells k).map fun c => { c with idx := relabel e c.idx } :=
  sparseGet?_map s.cells (fun c => { c with idx := relabel e c.idx }) k

/-- Settles O38: the dictionary is the swapped one, where the empty block stood at `e`, and a cell is relabelled by which of
the two entries it names. -/
theorem promotionSwapsAndRelabels : Obligations.PromotionSwapsAndRelabels := by
  intro s e hs he h0
  have hzero := hs.emptyRec
  rw [emptyRecLegal, he] at hzero
  have hlt : e.toNat < s.dict.length := (List.getElem?_eq_some_iff.1 hzero).1
  have hne : e.toNat ≠ 0 := fun h => h0 (BitVec.eq_of_toNat_eq h)
  obtain ⟨hfront, hback, hothers⟩ := swapEntries_getElem? s.dict e.toNat hlt hne
  have hmoves := promoteEmpty_moves he h0
  refine ⟨_, exec_promoteEmpty s, promoteEmpty_keeps_outside s, promoteEmpty_status s, promoteEmpty_errCmd s,
    promoteEmpty_errCell s, promoteEmpty_roles s, promoteEmpty_buf s, ?_⟩
  rw [hmoves]
  refine ⟨swapEntries_length .., hfront.trans hzero, hback, hothers, rfl, promoteResult_swapped e, fun k => ?_⟩
  rw [setResult_cells, sparseGet?_moveEmptyToFront]
  refine ⟨fun hnone => by rw [hnone]; rfl, fun c hc => ?_⟩
  rw [hc, Option.map_some]
  refine ⟨fun hidx => ?_, fun hidx => ?_, fun hidx0 hidxe => ?_⟩
  · rw [hidx, relabel_zero]
  · rw [hidx, relabel_self]
  · rw [relabel_other hidx0 hidxe]

end Sys2Proof.Machine
end

section
/-! The commands of spec/44_charmap.md at their edges: a cell or a raster beyond the map (R181, R188), a raster without a
whole cell (R188), and `FINALIZE` alone (R190, R191). -/

namespace Sys2Proof.Machine

/-! ### The checks of `BUILD_CELL` and `BUILD_CHARMAP` (R181, R188, R228) -/

theorem cellCheck_passes {s : State} {cx cy : Nat} (hx : cx < mapWidth s) (hy : cy < mapHeight s) :
    (cellCheck s cx cy).fails = false := by
  rw [← Bool.not_eq_true, cellCheck_fails]
  exact fun hout => hout.elim hx.not_ge hy.not_ge

theorem mapIndexCheck_passes {s : State} {k : Nat} (hk : k < s.mapCap) : (mapIndexCheck s k).fails = false := by
  rw [← Bool.not_eq_true, mapIndexCheck_fails]
  exact hk.not_ge

theorem mapSizeCheck_passes {s : State} (hfit : mapWidth s * mapHeight s ≤ s.mapCap) : (mapSizeCheck s).fails = false := by
  rw [← Bool.not_eq_true, mapSizeCheck_fails]
  exact hfit.not_gt

/-- Settles O41: the checks before the capacity check pass, and it fails. -/
theorem cellsBeyondTheMapRaiseCapacityError : Obligations.CellsBeyondTheMapRaiseCapacityError := by
  intro s hconfig hfmt
  refine ⟨fun cx cy hx hy hk => ?_, fun hsize => ?_⟩
  · have hbeyond : (mapIndexCheck s (cellIndex s cx.toNat cy.toNat)).fails = true := (mapIndexCheck_fails ..).2 hk
    simp only [exec]
    exact runCommand_faulted ((firstFailing_of_passes (configCheck_passes hconfig) _).trans
      ((firstFailing_of_passes (formatCheck_passes hfmt) _).trans
        ((firstFailing_of_passes (cellCheck_passes hx hy) _).trans (firstFailing_of_fails hbeyond _)))) ..
  · have hbeyond : (mapSizeCheck s).fails = true := (mapSizeCheck_fails s).2 hsize
    simp only [exec]
    exact runCommand_faulted ((firstFailing_of_passes (configCheck_passes hconfig) _).trans
      ((firstFailing_of_passes (formatCheck_passes hfmt) _).trans (firstFailing_of_fails hbeyond _))) ..

/-! ### `FINALIZE` (R190, R191) -/

/-- What the finalization writes after the promotion, which keeps the count. -/
theorem finalizeImage_eq (s : State) :
    finalizeImage s =
      { promoteEmpty s with
        result := BitVec.ofNat 32 (s.dict.length + s.cfgOffset.toNat)
        status :=
          { s.status with asw := s.status.asw || decide (256 < s.dict.length + s.cfgOffset.toNat) } } := by
  have hcount : dictCount (promoteEmpty s) = s.dict.length := dictCount_promoteEmpty s
  simp only [finalizeImage, setResult, testAddressSpace, exceedsAddressSpace, hcount, promoteEmpty_cfgOffset,
    promoteEmpty_status]

/-- Settles O47: `FINALIZE` makes no check, and its body is the promotion followed by two writes. -/
theorem finalizePromotesAndTestsTheAddressSpace : Obligations.FinalizePromotesAndTestsTheAddressSpace := by
  intro s
  refine ⟨promoteEmpty s, exec_promoteEmpty s, ?_⟩
  rw [← finalizeImage_eq]
  exact runCommand_done (encode .finalize) [] s (finalizeImage s) (by simp)

/-! ### `BUILD_CHARMAP` past its checks (R188) -/

variable {s t : State}

theorem buildCharmap_checks_pass (hconfig : configOk s) (hfmt : s.rasterFmt = 1#1)
    (hfit : mapWidth s * mapHeight s ≤ s.mapCap) :
    ∀ c ∈ [configCheck s, formatCheck s, mapSizeCheck s], c.fails = false := by
  simp [configCheck_passes hconfig, formatCheck_passes hfmt, mapSizeCheck_passes hfit]

theorem exec_buildCharmap_done (hconfig : configOk s) (hfmt : s.rasterFmt = 1#1)
    (hfit : mapWidth s * mapHeight s ≤ s.mapCap) (h : buildCells (cellsInRasterOrder s) (dataClear s) = .done () t) :
    exec .buildCharmap s = .next (finalizeImage t) := by
  simp only [exec, execBuildCharmap, h]
  exact runCommand_done _ _ _ _ (buildCharmap_checks_pass hconfig hfmt hfit)

theorem exec_buildCharmap_raised {code : FaultCode} {cell : Word} (hconfig : configOk s) (hfmt : s.rasterFmt = 1#1)
    (hfit : mapWidth s * mapHeight s ≤ s.mapCap)
    (h : buildCells (cellsInRasterOrder s) (dataClear s) = .raised code cell t) :
    exec .buildCharmap s = .next (raiseFault (encode .buildCharmap) code cell t) := by
  simp only [exec, execBuildCharmap, h]
  exact runCommand_raised _ _ _ _ _ _ (buildCharmap_checks_pass hconfig hfmt hfit)

theorem length_cellsInRasterOrder (s : State) : (cellsInRasterOrder s).length = mapHeight s * mapWidth s := by
  simp [cellsInRasterOrder, List.length_flatMap]

/-- Settles O44: no cell is built, so that a cleared state is finalized, in which nothing moves. -/
theorem buildCharmapOfNoCells : Obligations.BuildCharmapOfNoCells := by
  intro s hconfig hfmt hnone
  have hnoCells : cellsInRasterOrder s = [] := by
    rw [← List.length_eq_zero_iff, length_cellsInRasterOrder, Nat.mul_comm, hnone]
  have hbuild : buildCells (cellsInRasterOrder s) (dataClear s) = .done () (dataClear s) := by
    rw [hnoCells, buildCells_nil]
  rw [exec_buildCharmap_done hconfig hfmt (hnone ▸ Nat.zero_le _) hbuild, finalizeImage_eq,
    promoteEmpty_stays rfl (.inl rfl)]
  simp only [dataClear_dict, dataClear_cfgOffset, List.length_nil, Nat.zero_add]
  simp only [dataClear, dataClearFlags, setResult, Bool.false_or]

end Sys2Proof.Machine
end

section
/-! What one cell of the map is built from, and what `CellStep` and `BUILD_CELL` leave (R180, R181, R182, R184, R193). -/

namespace Sys2Proof.Machine

/-! ### The block in the buffer -/

/-- The buffered block, its flags and the roles it learned are the same. -/
structure SameBlock (s t : State) : Prop where
  buf : t.buf = s.buf
  roles : t.roles = s.roles
  blkV : t.status.blkV = s.status.blkV
  blkMc : t.status.blkMc = s.status.blkMc
  blkSpr : t.status.blkSpr = s.status.blkSpr
  blkBlank : t.status.blkBlank = s.status.blkBlank

theorem SameBlock.trans {s t u : State} (h : SameBlock s t) (k : SameBlock t u) : SameBlock s u where
  buf := k.buf.trans h.buf
  roles := k.roles.trans h.roles
  blkV := k.blkV.trans h.blkV
  blkMc := k.blkMc.trans h.blkMc
  blkSpr := k.blkSpr.trans h.blkSpr
  blkBlank := k.blkBlank.trans h.blkBlank

/-- Whether a state holds a cell is read off its buffered block. -/
theorem HoldsCell.of_sameBlock {s t u : State} {cx cy : Nat} (h : HoldsCell s cx cy t) (k : SameBlock t u) :
    HoldsCell s cx cy u where
  valid := k.blkV.trans h.valid
  character := k.blkSpr.trans h.character
  multicolor := k.blkMc ▸ h.multicolor
  blank := by rw [k.blkBlank, k.buf]; exact h.blank
  codes := by rw [k.blkMc, k.buf]; exact h.codes
  roles := by rw [k.blkMc, k.roles]; exact h.roles

/-! ### The encode step of a cell (R180, R182) -/

variable {s t : State} {cx cy k : Nat}

@[simp] theorem encodeCell_status (cx cy : Nat) (s : State) :
    (encodeCell cx cy s).status =
      blockFlags s.status .character (autoWidth s (8 * cx) (8 * cy) .character)
        (scanBlock s (8 * cx) (8 * cy) .character (autoWidth s (8 * cx) (8 * cy) .character)).2 := rfl

@[simp] theorem encodeCell_buf (cx cy : Nat) (s : State) :
    (encodeCell cx cy s).buf =
      (scanBlock s (8 * cx) (8 * cy) .character (autoWidth s (8 * cx) (8 * cy) .character)).2 := rfl

theorem encodeCell_keeps_outside (cx cy : Nat) (s : State) : SameOutsideImage s (encodeCell cx cy s) := by
  constructor <;> rfl

theorem encodeCell_keeps_tables (cx cy : Nat) (s : State) : SameTables s (encodeCell cx cy s) := by
  constructor <;> rfl

/-- The field of each scanned pixel of a character: its row is one byte (R73, R74). -/
theorem extractLsb'_scanBlock_character (s : State) (x0 y0 : Nat) {width : PixelWidth} {n : Nat} {p : Nat × Nat}
    (hn : (scanOrder .character width)[n]? = some p) :
    (bufByte (scanBlock s x0 y0 .character width).2 p.2).extractLsb' (8 - pixelBits width - p.1) (pixelBits width) =
      (codeAt s x0 y0 .character width n p.1 p.2).setWidth (pixelBits width) := by
  have hx : p.1 < 8 := (scanOrder_bounds .character width p (List.mem_of_getElem? hn)).1
  have hfield := extractLsb'_scanBlock s x0 y0 hn
  rwa [rowBytes, Nat.mul_one, Nat.div_eq_of_lt hx, Nat.add_zero, Nat.mod_eq_of_lt hx] at hfield

/-- The encode step leaves the encoding of its cell. -/
theorem holdsCell_encodeCell (s : State) (cx cy : Nat) : HoldsCell s cx cy (encodeCell cx cy s) where
  valid := rfl
  character := rfl
  multicolor := by rw [encodeCell_status, blockFlags_blkMc, beq_iff_eq, autoWidth_eq_multicolor_iff]
  blank := blankBlock_iff ..
  codes width hw n p hn := by
    obtain rfl := eq_of_eq_width_of_blkMc hw
    exact extractLsb'_scanBlock_character s _ _ hn
  roles width hw := by
    obtain rfl := eq_of_eq_width_of_blkMc hw
    exact scanBlock_roles ..

/-! ### The record that a command reports in -/

/-- The fault record, the warning and `RESULT` are the same. -/
structure SameReport (s t : State) : Prop where
  record : SameFaultRecord s t
  asw : t.status.asw = s.status.asw
  result : t.result = s.result

theorem SameReport.refl (s : State) : SameReport s s := ⟨by constructor <;> rfl, rfl, rfl⟩

theorem SameReport.trans {u : State} (h : SameReport s t) (k : SameReport t u) : SameReport s u :=
  ⟨⟨k.record.fault.trans h.record.fault, k.record.err.trans h.record.err, k.record.ign.trans h.record.ign,
    k.record.errCmd.trans h.record.errCmd, k.record.errCell.trans h.record.errCell⟩, k.asw.trans h.asw,
    k.result.trans h.result⟩

theorem encodeCell_keeps_report (cx cy : Nat) (s : State) : SameReport s (encodeCell cx cy s) :=
  ⟨by constructor <;> rfl, rfl, rfl⟩

/-! ### Insertion (R160, R162) -/

/-- An insertion writes the dictionary, `EMPTY_REC` and `NEW` only. -/
theorem lookupOrInsert_keeps_rest (b : Block) (cell : Word) (s : State) :
    (lookupOrInsert b cell s).Keeps fun t => SameBlock s t ∧ SameReport s t ∧ t.cells = s.cells := by
  rcases lookupOrInsert_cases b cell s with ⟨i, -, h⟩ | ⟨-, -, h⟩ | ⟨-, -, h⟩ <;> rw [h]
  · exact ⟨by constructor <;> rfl, ⟨by constructor <;> rfl, rfl, rfl⟩, rfl⟩
  · exact ⟨by decide, by constructor <;> rfl, .refl s, rfl⟩
  · exact ⟨by constructor <;> rfl, ⟨by constructor <;> rfl, rfl, rfl⟩, rfl⟩

theorem rest_of_lookupOrInsert_done {b : Block} {cell : Word} {v : Index × Bool}
    (h : lookupOrInsert b cell s = .done v t) : SameBlock s t ∧ SameReport s t ∧ t.cells = s.cells := by
  have hkeeps := lookupOrInsert_keeps_rest b cell s
  rwa [h] at hkeeps

theorem outside_of_lookupOrInsert_done {b : Block} {cell : Word} {v : Index × Bool}
    (h : lookupOrInsert b cell s = .done v t) : SameOutsideImage s t ∧ s.dict <+: t.dict := by
  have hkeeps := lookupOrInsert_keeps_outside b cell s
  rwa [h] at hkeeps

/-- `NEW` says whether the insertion answered a new entry. -/
theorem newEntry_of_lookupOrInsert_done {b : Block} {cell : Word} {v : Index × Bool}
    (h : lookupOrInsert b cell s = .done v t) : t.status.newEntry = v.2 := by
  rcases lookupOrInsert_cases b cell s with ⟨i, -, hl⟩ | ⟨-, -, hl⟩ | ⟨-, -, hl⟩ <;> cases hl.symm.trans h <;> rfl

theorem lookupOrInsert_done_of_mem {b : Block} {cell : Word} {v : Index × Bool} (hb : b ∈ s.dict)
    (h : lookupOrInsert b cell s = .done v t) :
    t.status.newEntry = false ∧ t.dict = s.dict ∧ t.emptyRec = s.emptyRec := by
  obtain ⟨i, hi⟩ := exists_findBlock_of_mem hb
  cases (lookupOrInsert_of_found hi cell).symm.trans h
  exact ⟨rfl, rfl, rfl⟩

/-- A zero block that the dictionary does not have is the first one, so that it is the one recorded (R163). -/
theorem lookupOrInsert_done_of_not_mem (hs : Inv s) {b : Block} {cell : Word} {v : Index × Bool} (hb : b ∉ s.dict)
    (h : lookupOrInsert b cell s = .done v t) :
    t.status.newEntry = true ∧ t.dict = s.dict ++ [b] ∧
      t.emptyRec = if b = zeroBlock then some v.1 else s.emptyRec := by
  have hnone : b = zeroBlock → s.emptyRec = none := by
    rintro rfl
    have hrec := hs.emptyRec
    cases he : s.emptyRec with
    | none => rfl
    | some e =>
      rw [emptyRecLegal, he] at hrec
      exact absurd (List.mem_of_getElem? hrec) hb
  rcases lookupOrInsert_cases b cell s with ⟨i, hi, -⟩ | ⟨-, -, hl⟩ | ⟨-, -, hl⟩
  · exact absurd (List.mem_of_getElem? (findBlock_some _ _ _ hi).1) hb
  · cases hl.symm.trans h
  · cases hl.symm.trans h
    refine ⟨rfl, rfl, ?_⟩
    rw [appendBlock_emptyRec]
    by_cases hzero : b = zeroBlock
    · rw [if_pos ⟨hzero, hnone hzero⟩, if_pos hzero]
    · rw [if_neg fun ⟨h, _⟩ => hzero h, if_neg hzero]

/-! ### `CellStep` (R182, R193) -/

/-- The map cell that `CellStep` writes when the insertion answers index `i` and leaves `t`. -/
def builtCell (cx cy : Nat) (s : State) (i : Index) (t : State) : MapCell where
  idx := i
  attr := attributeByte t (effectiveMode s) (autoWidth s (8 * cx) (8 * cy) .character == .hires)

theorem cellStep_of_done {v : Index × Bool}
    (h : lookupOrInsert (bufBlock (encodeCell cx cy s)) (BitVec.ofNat 32 k) (encodeCell cx cy s) = .done v t) :
    cellStep cx cy k s = .done v (writeCell k (builtCell cx cy s v.1 t) t) := by
  simp only [cellStep, h]
  rfl

theorem cellStep_of_raised {code : FaultCode} {cell : Word}
    (h : lookupOrInsert (bufBlock (encodeCell cx cy s)) (BitVec.ofNat 32 k) (encodeCell cx cy s) = .raised code cell t) :
    cellStep cx cy k s = .raised code cell t := by
  simp only [cellStep, h]

/-- A new block and a full dictionary: the encoded block and its roles stay, and no cell is written (R193). -/
theorem cellStep_of_full (hfull : s.dict.length = s.dictCap) (hb : bufBlock (encodeCell cx cy s) ∉ s.dict) :
    cellStep cx cy k s = .raised .capacity (BitVec.ofNat 32 k) (encodeCell cx cy s) :=
  cellStep_of_raised (lookupOrInsert_of_full (s := encodeCell cx cy s) hb hfull _)

/-- With room for its block, or the block in the dictionary, a cell is built. -/
theorem cellStep_done_of_room (hroom : bufBlock (encodeCell cx cy s) ∈ s.dict ∨ s.dict.length < s.dictCap) (k : Nat) :
    ∃ v t, lookupOrInsert (bufBlock (encodeCell cx cy s)) (BitVec.ofNat 32 k) (encodeCell cx cy s) = .done v t ∧
      cellStep cx cy k s = .done v (writeCell k (builtCell cx cy s v.1 t) t) := by
  obtain ⟨v, t, hl⟩ := lookupOrInsert_done_of_room (s := encodeCell cx cy s) hroom (BitVec.ofNat 32 k)
  exact ⟨v, t, hl, cellStep_of_done hl⟩

/-- Building a cell leaves the cell's encoding in the buffer, and does not report. -/
theorem cellStep_keeps_rest (cx cy k : Nat) (s : State) :
    (cellStep cx cy k s).Keeps fun t => SameBlock (encodeCell cx cy s) t ∧ SameReport s t := by
  have hlookup := lookupOrInsert_keeps_rest (bufBlock (encodeCell cx cy s)) (BitVec.ofNat 32 k) (encodeCell cx cy s)
  have hencode := encodeCell_keeps_report cx cy s
  rcases cellStep_cases cx cy k s with ⟨code, cell, t, hl, h⟩ | ⟨v, t, a, hl, h⟩ <;> rw [hl] at hlookup <;> rw [h]
  · obtain ⟨hcode, hblock, hreport, -⟩ := hlookup
    exact ⟨hcode, hblock, hencode.trans hreport⟩
  · obtain ⟨hblock, hreport, -⟩ := hlookup
    exact ⟨hblock.trans (by constructor <;> rfl), (hencode.trans hreport).trans ⟨by constructor <;> rfl, rfl, rfl⟩⟩

/-! ### `BUILD_CELL` past its checks (R181) -/

variable {x y : BitVec 12}

theorem buildCell_checks_pass (hconfig : configOk s) (hfmt : s.rasterFmt = 1#1) (hx : x.toNat < mapWidth s)
    (hy : y.toNat < mapHeight s) (hk : cellIndex s x.toNat y.toNat < s.mapCap) :
    ∀ c ∈ [configCheck s, formatCheck s, cellCheck s x.toNat y.toNat, mapIndexCheck s (cellIndex s x.toNat y.toNat)],
      c.fails = false := by
  simp [configCheck_passes hconfig, formatCheck_passes hfmt, cellCheck_passes hx hy, mapIndexCheck_passes hk]

theorem exec_buildCell_done (hconfig : configOk s) (hfmt : s.rasterFmt = 1#1) (hx : x.toNat < mapWidth s)
    (hy : y.toNat < mapHeight s) (hk : cellIndex s x.toNat y.toNat < s.mapCap) {v : Index × Bool}
    (h : cellStep x.toNat y.toNat (cellIndex s x.toNat y.toNat) s = .done v t) :
    exec (.buildCell x y) s = .next (setResult (insertionResult v.1 v.2) t) := by
  simp only [exec, execBuildCell, h]
  exact runCommand_done _ _ _ _ (buildCell_checks_pass hconfig hfmt hx hy hk)

theorem exec_buildCell_raised (hconfig : configOk s) (hfmt : s.rasterFmt = 1#1) (hx : x.toNat < mapWidth s)
    (hy : y.toNat < mapHeight s) (hk : cellIndex s x.toNat y.toNat < s.mapCap) {code : FaultCode} {cell : Word}
    (h : cellStep x.toNat y.toNat (cellIndex s x.toNat y.toNat) s = .raised code cell t) :
    exec (.buildCell x y) s = .next (raiseFault (encode (.buildCell x y)) code cell t) := by
  simp only [exec, execBuildCell, h]
  exact runCommand_raised _ _ _ _ _ _ (buildCell_checks_pass hconfig hfmt hx hy hk)

/-- Settles O42: `CellStep` raises in the state that its encode step leaves, and the fault entry adds the record. -/
theorem buildCellIntoAFullDictionary : Obligations.BuildCellIntoAFullDictionary := by
  intro cx cy s hconfig hfmt hx hy hk hfull hb
  have hexec := exec_buildCell_raised hconfig hfmt hx hy hk (cellStep_of_full hfull hb)
  have hholds := holdsCell_encodeCell s cx.toNat cy.toNat
  exact ⟨_, hexec, exec_keeps_outside hexec, by constructor <;> rfl, rfl, rfl, rfl, rfl, rfl, rfl, rfl, rfl, rfl, rfl,
    rfl, rfl, rfl, rfl, hholds.of_sameBlock (by constructor <;> rfl)⟩

/-! ### The byte of `CMap` (R184, R185) -/

/-- `MARK_POL` selects the multicolor blocks when it is 1 and the hires ones when it is 0 (R185). -/
theorem marker_selected_iff (width : PixelWidth) (polarity : Bool) :
    ((width == .hires) != polarity) = true ↔ (width == .multicolor) = polarity := by
  cases width <;> cases polarity <;> decide

/-- A cell's byte of `CMap` from the registers: the marker goes to the blocks of the width that `MARK_POL` selects. -/
theorem builtCell_attr (houtside : SameOutsideImage s t) (hmc : t.status.blkMc = (encodeCell cx cy s).status.blkMc)
    (i : Index) :
    (builtCell cx cy s i t).attr =
      ((t.roles.uq.getD (s.cfgAttr.extractLsb' 0 8)) &&&
          (if s.cfgFg.getLsbD 8 = false ∧ (s.cfgMc.getLsbD 16 = true ∨ s.ctrl.getLsbD 0 = true)
            then s.cfgAttr.extractLsb' 16 8 else s.cfgAttr.extractLsb' 8 8)) |||
        (if (s.cfgFg.getLsbD 8 = false ∧ (s.cfgMc.getLsbD 16 = true ∨ s.ctrl.getLsbD 0 = true)) ∧
            (t.status.blkMc = s.ctrl.getLsbD 2)
          then s.cfgAttr.extractLsb' 24 8 else 0#8) := by
  rw [encodeCell_status, blockFlags_blkMc] at hmc
  have hpolarity : markPolarity t = s.ctrl.getLsbD 2 := by rw [markPolarity, houtside.ctrl]
  rw [← houtside.cfgAttr, ← hpolarity, hmc]
  by_cases hmode : s.cfgFg.getLsbD 8 = false ∧ (s.cfgMc.getLsbD 16 = true ∨ s.ctrl.getLsbD 0 = true)
  · have heffective : effectiveMode s = .multicolor := by rw [effectiveMode_eq, if_pos hmode]
    simp only [builtCell, attributeByte, markerSet, heffective, beq_self_eq_true, Bool.true_and,
      marker_selected_iff, hmode, true_and]
    rfl
  · have heffective : effectiveMode s = .hires := by rw [effectiveMode_eq, if_neg hmode]
    simp only [builtCell, attributeByte, markerSet, heffective, hmode, false_and]
    rfl

/-- Settles O40: the insertion answers the index at which the block then stands, and the cell at that index is written
from the roles that the encoding left. -/
theorem buildCellWritesItsCell : Obligations.BuildCellWritesItsCell := by
  intro cx cy s hs hconfig hfmt hx hy hk hroom
  have hencoded : Inv (encodeCell cx.toNat cy.toNat s) := inv_encodeBlock hs ..
  obtain ⟨v, t, hl, hcell⟩ := cellStep_done_of_room hroom.symm (cellIndex s cx.toNat cy.toNat)
  have hexec := exec_buildCell_done hconfig hfmt hx hy hk hcell
  obtain ⟨hblock, hreport, hcells⟩ := rest_of_lookupOrInsert_done hl
  obtain ⟨houtside, hgrows⟩ := outside_of_lookupOrInsert_done hl
  have hrecord := ((encodeCell_keeps_report _ _ s).trans hreport).record
  have hholds := (holdsCell_encodeCell s cx.toNat cy.toNat).of_sameBlock hblock
  rw [← bufBlock_congr hblock.buf] at hl
  have hfound := fun hmem => lookupOrInsert_done_of_mem hmem hl
  have hnew := fun hmem => lookupOrInsert_done_of_not_mem hencoded hmem hl
  refine ⟨_, v.1, _, hexec, exec_keeps_outside hexec,
    ⟨hrecord.fault, hrecord.err, hrecord.ign, hrecord.errCmd, hrecord.errCell⟩, hreport.asw, hholds.valid,
    hholds.character, hholds.multicolor, hblock.buf, hblock.roles, hblock.blkBlank,
    hholds.of_sameBlock (by constructor <;> rfl), sparseGet?_set_same .., fun k hne => ?_, ?_, fun j hj => ?_,
    hfound, hnew, ?_, ?_⟩
  · exact (sparseGet?_set_other _ _ _ _ hne).trans (congrArg (sparseGet? · k) hcells)
  · exact (findBlock_some _ _ _ (findBlock_of_lookupOrInsert_done hencoded hl)).1
  · exact (getElem?_of_prefix hgrows (List.getElem?_eq_getElem hj)).trans (List.getElem?_eq_getElem hj).symm
  · rw [setResult_result, insertionResult_eq, setResult_status, writeCell_status, newEntry_of_lookupOrInsert_done hl]
  · exact builtCell_attr ((encodeCell_keeps_outside ..).trans houtside) hblock.blkMc v.1

end Sys2Proof.Machine
end

section
/-! The build cursor of `BUILD_CHARMAP` (R188, R189, R193): what it leaves after any number of cells, where it stops, and
what the promotion at its end makes of the map (R190). -/

namespace Sys2Proof.Machine

variable {s t u : State}

/-! ### The cells in raster order (R180, R189) -/

/-- The cell at a position is the one whose map index the position is. -/
theorem index_of_getElem?_cellsInRasterOrder {n cx cy : Nat} (h : (cellsInRasterOrder s)[n]? = some (cx, cy)) :
    n = cellIndex s cx cy := by
  obtain ⟨hn, -⟩ := List.getElem?_eq_some_iff.1 h
  rw [length_cellsInRasterOrder, Nat.mul_comm] at hn
  have hrow : 0 < mapWidth s := Nat.pos_of_mul_pos_right (Nat.zero_lt_of_lt hn)
  have hentry := getElem?_flatMap_row (List.range (mapHeight s)) (n := mapWidth s)
    (g := fun cy => (List.range (mapWidth s)).map fun cx => (cx, cy)) (by simp) (n / mapWidth s) (Nat.mod_lt n hrow)
  rw [Nat.div_add_mod', List.getElem?_range (Nat.div_lt_of_lt_mul hn), ← cellsInRasterOrder, h] at hentry
  obtain ⟨rfl, rfl⟩ : cx = n % mapWidth s ∧ cy = n / mapWidth s := by simpa [Nat.mod_lt n hrow] using hentry
  exact (Nat.div_add_mod' ..).symm

/-- Two cells of one map with the same index are the same cell. -/
theorem cell_eq_of_cellIndex_eq {c d : Nat × Nat} (hc : c ∈ cellsInRasterOrder s) (hd : d ∈ cellsInRasterOrder s)
    (h : cellIndex s c.1 c.2 = cellIndex s d.1 d.2) : c = d := by
  obtain ⟨n, hn⟩ := List.mem_iff_getElem?.1 hc
  obtain ⟨m, hm⟩ := List.mem_iff_getElem?.1 hd
  have hnm : n = m :=
    (index_of_getElem?_cellsInRasterOrder hn).trans (h.trans (index_of_getElem?_cellsInRasterOrder hm).symm)
  rw [hnm, hm] at hn
  exact (Option.some.inj hn).symm

/-- The cells of the map have the indices below its size. -/
theorem exists_cell_iff (s : State) (k : Nat) :
    (∃ c ∈ cellsInRasterOrder s, cellIndex s c.1 c.2 = k) ↔ k < mapWidth s * mapHeight s := by
  rw [Nat.mul_comm, ← length_cellsInRasterOrder]
  constructor
  · rintro ⟨c, hc, rfl⟩
    obtain ⟨n, hn⟩ := List.mem_iff_getElem?.1 hc
    rw [← index_of_getElem?_cellsInRasterOrder hn]
    exact (List.getElem?_eq_some_iff.1 hn).1
  · intro hk
    exact ⟨_, List.getElem_mem hk, (index_of_getElem?_cellsInRasterOrder (List.getElem?_eq_getElem hk)).symm⟩

/-! ### The build cursor (R44, R188) -/

/-- What every cell keeps, the build cursor keeps. -/
theorem buildCells_keeps {P : State → Prop}
    (hcell : ∀ cx cy u, P u → (cellStep cx cy (cellIndex u cx cy) u).Keeps P) (cells : List (Nat × Nat)) (hs : P s) :
    (buildCells cells s).Keeps P := by
  induction cells generalizing s with
  | nil => exact hs
  | cons c rest ih =>
    obtain ⟨cx, cy⟩ := c
    have hkeeps := hcell cx cy s hs
    rw [buildCells_cons]
    cases hc : cellStep cx cy (cellIndex s cx cy) s with
    | done v t => exact ih (by rwa [hc] at hkeeps)
    | raised code cell t => rwa [hc] at hkeeps

theorem buildCells_keeps_report (cells : List (Nat × Nat)) (s : State) : (buildCells cells s).Keeps (SameReport s) :=
  buildCells_keeps (fun _ _ _ hu => (cellStep_keeps_rest ..).imp fun _ ⟨_, hreport⟩ => hu.trans hreport) cells (.refl s)

theorem buildCells_append_of_done {cells more : List (Nat × Nat)} (h : buildCells cells s = .done () t) :
    buildCells (cells ++ more) s = buildCells more t := by
  induction cells generalizing s with
  | nil =>
    cases h
    rfl
  | cons c rest ih =>
    obtain ⟨cx, cy⟩ := c
    rw [List.cons_append, buildCells_cons]
    rw [buildCells_cons] at h
    cases hc : cellStep cx cy (cellIndex s cx cy) s with
    | done v w =>
      rw [hc] at h
      exact ih h
    | raised code cell w =>
      rw [hc] at h
      cases h

/-- Settles O45: the cursor stands at cell `n` in the state that the cells before it left, and there `CellStep` raises in
the state that its encode step leaves. -/
theorem buildCharmapStopsAtTheOverflowingCell : Obligations.BuildCharmapStopsAtTheOverflowingCell := by
  intro s u n cx cy hconfig hfmt hfit hn hbuilt hfull hb
  have hindex := index_of_getElem?_cellsInRasterOrder hn
  have hclear : SameOutsideImage s (dataClear s) := by constructor <;> rfl
  have houtside := buildCells_keeps_outside ((cellsInRasterOrder s).take n) (dataClear s)
  have hreport := buildCells_keeps_report ((cellsInRasterOrder s).take n) (dataClear s)
  rw [hbuilt] at houtside hreport
  have hsame : SameOutsideImage s u := hclear.trans houtside
  have hraised : buildCells (cellsInRasterOrder s) (dataClear s) =
      .raised .capacity (BitVec.ofNat 32 n) (encodeCell cx cy u) := by
    obtain ⟨hlt, hget⟩ := List.getElem?_eq_some_iff.1 hn
    rw [← List.take_append_drop n (cellsInRasterOrder s), buildCells_append_of_done hbuilt,
      List.drop_eq_getElem_cons hlt, hget, buildCells_cons, cellStep_of_full hfull hb, hsame.cellIndex_eq, ← hindex]
  exact ⟨exec_buildCharmap_raised hconfig hfmt hfit hraised, hindex, encodeCell_keeps_tables .., hreport.result, hsame,
    holdsCell_encodeCell ..⟩

/-! ### The encode step during a build (R136, R182) -/

/-- What is outside of the image decides a cell's width. -/
theorem SameOutsideImage.autoWidth_eq (h : SameOutsideImage s t) (x0 y0 : Nat) (ctx : Context) :
    autoWidth t x0 y0 ctx = autoWidth s x0 y0 ctx := by
  have hpixels : ∀ a b, rasterRead t a b = rasterRead s a b := fun a b => by rw [rasterRead, rasterRead, h.raster]
  apply width_eq_of_multicolor_iff
  rw [autoWidth_eq_multicolor_iff, autoWidth_eq_multicolor_iff, h.cfgFg, h.cfgMc, h.ctrl,
    hiresByClosedForm_congr h.cfgBg h.cfgHint fun a b _ _ => hpixels _ _]

theorem SameOutsideImage.sameScanInputs (h : SameOutsideImage s t) (x0 y0 : Nat) (ctx : Context) (width : PixelWidth) :
    SameScanInputs s t x0 y0 ctx width :=
  ⟨h.cfgBg, h.cfgFg, h.cfgMc, h.cfgHint, h.cfgSprPad, fun _ _ => by rw [rasterRead, rasterRead, h.raster]⟩

theorem bufBlock_eq_of_bytes (h : ∀ j, j < 8 → bufByte t.buf j = bufByte s.buf j) : bufBlock t = bufBlock s := by
  simp only [bufBlock, h, Nat.reduceLT]

/-- And it decides a cell's block, whatever image has been built so far. -/
theorem SameOutsideImage.encodeCell_block_eq (h : SameOutsideImage s t) (cx cy : Nat) :
    bufBlock (encodeCell cx cy t) = bufBlock (encodeCell cx cy s) :=
  bufBlock_eq_of_bytes fun j hj => by
    rw [encodeCell_buf, encodeCell_buf, h.autoWidth_eq, (h.sameScanInputs ..).scanBlock_eq,
      bufByte_scanBlock_withBuf _ _ _ _ _ _ hj]

/-! ### One more cell (R182) -/

/-- An insertion adds no entry but its own block. -/
theorem mem_dict_of_lookupOrInsert_done {b : Block} {cell : Word} {v : Index × Bool}
    (h : lookupOrInsert b cell s = .done v t) {e : Block} (he : e ∈ t.dict) : e ∈ s.dict ∨ e = b := by
  rcases lookupOrInsert_cases b cell s with ⟨i, -, hl⟩ | ⟨-, -, hl⟩ | ⟨-, -, hl⟩ <;> cases hl.symm.trans h
  · exact .inl he
  · simpa using he

/-- From `s` to `t` the map cell `k` is written, with the index of an entry that holds `b`, and no other; the dictionary has
gained at most that entry, at its end. -/
structure AddsCell (s : State) (b : Block) (k : Nat) (t : State) : Prop where
  good : Inv t
  outside : SameOutsideImage s t
  named : ∃ m, sparseGet? t.cells k = some m ∧ t.dict[m.idx.toNat]? = some b
  others : ∀ j, j ≠ k → sparseGet? t.cells j = sparseGet? s.cells j
  grows : s.dict <+: t.dict
  entries : ∀ e ∈ t.dict, e ∈ s.dict ∨ e = b
  count : t.dict.length ≤ s.dict.length + 1

/-- `CellStep` with room for the cell and for its block. -/
theorem cellStep_addsCell (hs : Inv s) {cx cy k : Nat} (hk : k < s.mapCap)
    (hroom : bufBlock (encodeCell cx cy s) ∈ s.dict ∨ s.dict.length < s.dictCap) :
    ∃ v t, cellStep cx cy k s = .done v t ∧ AddsCell s (bufBlock (encodeCell cx cy s)) k t := by
  obtain ⟨v, t, hl, hstep⟩ := cellStep_done_of_room hroom k
  have hgood := cellStep_keeps_inv hs cx cy hk
  have houtside := cellStep_keeps_outside cx cy k s
  have hcount := lookupOrInsert_adds_at_most_one (bufBlock (encodeCell cx cy s)) (BitVec.ofNat 32 k) (encodeCell cx cy s)
  rw [hstep] at hgood houtside
  rw [hl] at hcount
  obtain ⟨houtside, hgrows⟩ := houtside
  obtain ⟨-, hcount⟩ := hcount
  obtain ⟨-, -, hcells⟩ := rest_of_lookupOrInsert_done hl
  have hentry := (findBlock_some _ _ _ (findBlock_of_lookupOrInsert_done (inv_encodeBlock hs ..) hl)).1
  exact ⟨v, _, hstep, hgood, houtside, ⟨_, sparseGet?_set_same .., hentry⟩,
    fun j hj => (sparseGet?_set_other _ _ _ _ hj).trans (congrArg (sparseGet? · j) hcells), hgrows,
    fun e he => mem_dict_of_lookupOrInsert_done hl he, hcount⟩

/-- A dictionary without doubled entries has room for one more block of a list that is no longer than its capacity. -/
theorem room_of_entries {blocks : List Block} (hs : Inv s) (hentries : ∀ b ∈ s.dict, b ∈ blocks)
    (hcap : blocks.length ≤ s.dictCap) {b : Block} (hb : b ∈ blocks) : b ∈ s.dict ∨ s.dict.length < s.dictCap := by
  obtain ⟨-, hnodup⟩ := hs.dict
  refine or_iff_not_imp_left.2 fun hnew => ?_
  have hsubset : b :: s.dict ⊆ blocks := List.cons_subset.2 ⟨hb, hentries⟩
  have hlength := ((List.nodup_cons.2 ⟨hnew, hnodup⟩).subperm hsubset).length_le
  rw [List.length_cons] at hlength
  omega

/-! ### What is built so far (R182, R189) -/

/-- In `t` exactly the cells `cells` of the map of `s` are built: each names the entry that holds its own block, and every
entry of the dictionary is one of `blocks`. -/
structure BuiltCells (s : State) (blocks : List Block) (cells : List (Nat × Nat)) (t : State) : Prop where
  good : Inv t
  outside : SameOutsideImage s t
  inMap : ∀ c ∈ cells, c ∈ cellsInRasterOrder s
  written : ∀ k, (sparseGet? t.cells k).isSome = true ↔ ∃ c ∈ cells, cellIndex s c.1 c.2 = k
  named : ∀ c ∈ cells, ∃ m, sparseGet? t.cells (cellIndex s c.1 c.2) = some m ∧
    t.dict[m.idx.toNat]? = some (bufBlock (encodeCell c.1 c.2 s))
  entries : ∀ b ∈ t.dict, b ∈ blocks
  count : t.dict.length ≤ cells.length

theorem builtCells_dataClear (hs : Inv s) (blocks : List Block) : BuiltCells s blocks [] (dataClear s) where
  good := inv_dataClear hs
  outside := by constructor <;> rfl
  inMap _ hc := absurd hc List.not_mem_nil
  written k := by simp [sparseGet?]
  named _ hc := absurd hc List.not_mem_nil
  entries _ hb := absurd hb List.not_mem_nil
  count := Nat.le_refl 0

variable {blocks : List Block} {cells : List (Nat × Nat)} {c : Nat × Nat}

/-- A cell that the map does not have yet is added to those built. -/
theorem BuiltCells.concat (h : BuiltCells s blocks cells t) (hc : c ∈ cellsInRasterOrder s)
    (hblock : bufBlock (encodeCell c.1 c.2 s) ∈ blocks)
    (hadds : AddsCell t (bufBlock (encodeCell c.1 c.2 s)) (cellIndex s c.1 c.2) u) :
    BuiltCells s blocks (cells ++ [c]) u where
  good := hadds.good
  outside := h.outside.trans hadds.outside
  inMap := List.forall_mem_append.2 ⟨h.inMap, List.forall_mem_singleton.2 hc⟩
  written k := by
    simp only [List.mem_append, List.mem_singleton, or_and_right, exists_or, exists_eq_left]
    by_cases hk : k = cellIndex s c.1 c.2
    · obtain ⟨m, hm, -⟩ := hadds.named
      simp [hk, hm]
    · rw [hadds.others k hk, h.written, or_iff_left (Ne.symm hk)]
  named d hd := by
    by_cases hk : cellIndex s d.1 d.2 = cellIndex s c.1 c.2
    · have hdMap := List.forall_mem_append.2 ⟨h.inMap, List.forall_mem_singleton.2 hc⟩ d hd
      rw [cell_eq_of_cellIndex_eq hdMap hc hk]
      exact hadds.named
    · rcases List.mem_append.1 hd with hd | hd
      · obtain ⟨m, hm, hentry⟩ := h.named d hd
        exact ⟨m, (hadds.others _ hk).trans hm, getElem?_of_prefix hadds.grows hentry⟩
      · exact absurd (by rw [List.mem_singleton.1 hd]) hk
  entries e he := (hadds.entries e he).elim (h.entries e) fun heq => heq ▸ hblock
  count := by
    rw [List.length_append, List.length_singleton]
    exact hadds.count.trans (Nat.succ_le_succ h.count)

/-- The build cursor builds every cell of its list when the map holds the raster and the dictionary all its blocks. -/
theorem BuiltCells.build_rest (h : BuiltCells s blocks cells t) (hfit : mapWidth s * mapHeight s ≤ s.mapCap)
    (hcap : blocks.length ≤ s.dictCap) (rest : List (Nat × Nat))
    (hall : ∀ c ∈ rest, c ∈ cellsInRasterOrder s ∧ bufBlock (encodeCell c.1 c.2 s) ∈ blocks) :
    ∃ u, buildCells rest t = .done () u ∧ BuiltCells s blocks (cells ++ rest) u := by
  induction rest generalizing cells t with
  | nil => exact ⟨t, rfl, (List.append_nil cells).symm ▸ h⟩
  | cons c rest ih =>
    obtain ⟨⟨hc, hblock⟩, hrest⟩ := List.forall_mem_cons.1 hall
    obtain ⟨cx, cy⟩ := c
    obtain ⟨hx, hy⟩ := (mem_cellsInRasterOrder s cx cy).1 hc
    have hsame := h.outside.encodeCell_block_eq cx cy
    have hindex := h.outside.cellIndex_eq cx cy
    have hk : cellIndex t cx cy < t.mapCap := by
      rw [hindex, h.outside.mapCap]
      exact cellIndex_lt_mapCap hfit hx hy
    have hroom := room_of_entries h.good h.entries (hcap.trans_eq h.outside.dictCap.symm) (hsame ▸ hblock)
    obtain ⟨v, u, hstep, hadds⟩ := cellStep_addsCell h.good hk hroom
    rw [hsame, hindex] at hadds
    obtain ⟨w, hbuild, hbuilt⟩ := ih (h.concat hc hblock hadds) hrest
    exact ⟨w, by rw [buildCells_cons, hstep]; exact hbuild, by rwa [List.append_cons]⟩

/-! ### The promotion at the end (R166, R190) -/

/-- A promotion moves each entry and relabels what names it alike. -/
theorem swapEntries_relabel {d : List Block} {e : Index} (he : e.toNat < d.length) (h0 : e ≠ 0#16) (i : Index) :
    (swapEntries d e.toNat)[(relabel e i).toNat]? = d[i.toNat]? := by
  have hne : e.toNat ≠ 0 := fun h => h0 (BitVec.eq_of_toNat_eq h)
  obtain ⟨hfront, hback, hothers⟩ := swapEntries_getElem? d e.toNat he hne
  by_cases hi0 : i = 0#16
  · rw [hi0, relabel_zero]
    exact hback
  · by_cases hie : i = e
    · rw [hie, relabel_self]
      exact hfront
    · rw [relabel_other hi0 hie]
      exact hothers _ (fun h => hi0 (BitVec.eq_of_toNat_eq h)) fun h => hie (BitVec.eq_of_toNat_eq h)

/-- The entry that `EMPTY_REC` names is there. -/
theorem emptyRec_lt (hs : Inv s) {e : Index} (he : s.emptyRec = some e) : e.toNat < s.dict.length := by
  have hrec := hs.emptyRec
  rw [emptyRecLegal, he] at hrec
  exact (List.getElem?_eq_some_iff.1 hrec).1

/-- Through a promotion a cell keeps naming its block. -/
theorem promoteEmpty_keeps_naming (hs : Inv s) {k : Nat} {m : MapCell} (hm : sparseGet? s.cells k = some m) :
    ∃ m', sparseGet? (promoteEmpty s).cells k = some m' ∧ (promoteEmpty s).dict[m'.idx.toNat]? = s.dict[m.idx.toNat]? := by
  rcases promoteEmpty_cases s with ⟨e, he, h0, h⟩ | ⟨-, h⟩ <;> rw [h]
  · refine ⟨{ m with idx := relabel e m.idx }, ?_, swapEntries_relabel (emptyRec_lt hs he) h0 m.idx⟩
    rw [setResult_cells, sparseGet?_moveEmptyToFront, hm, Option.map_some]
  · exact ⟨m, hm, rfl⟩

theorem isSome_promoteEmpty_cells (s : State) (k : Nat) :
    (sparseGet? (promoteEmpty s).cells k).isSome = (sparseGet? s.cells k).isSome := by
  rcases promoteEmpty_cases s with ⟨e, -, -, h⟩ | ⟨-, h⟩ <;> rw [h, setResult_cells]
  rw [sparseGet?_moveEmptyToFront, Option.isSome_map]

theorem promoteEmpty_dict_perm (hs : Inv s) : (promoteEmpty s).dict.Perm s.dict := by
  rcases promoteEmpty_cases s with ⟨e, he, -, h⟩ | ⟨-, h⟩ <;> rw [h]
  · exact swapEntries_perm _ _ (emptyRec_lt hs he)
  · exact .refl _

/-- After a promotion the empty block, if there is one, is at 0. -/
theorem promoteEmpty_zeroBlock (hs : Inv s) (hzero : zeroBlock ∈ (promoteEmpty s).dict) :
    (promoteEmpty s).dict[0]? = some zeroBlock ∧ (promoteEmpty s).emptyRec = some 0#16 := by
  have hrec := (inv_promoteEmpty hs).emptyRec
  have hfront : (promoteEmpty s).emptyRec = none ∨ (promoteEmpty s).emptyRec = some 0#16 := by
    rcases promoteEmpty_cases s with ⟨e, -, -, h⟩ | ⟨hstays, h⟩ <;> rw [h]
    · exact .inr rfl
    · exact hstays
  rcases hfront with hnone | hfront
  · rw [emptyRecLegal, hnone] at hrec
    exact absurd hzero hrec
  · rw [emptyRecLegal, hfront] at hrec
    exact ⟨hrec, hfront⟩

/-- Settles O43: the cursor builds every cell, and the promotion keeps what each cell names. -/
theorem buildCharmapWritesEveryCell : Obligations.BuildCharmapWritesEveryCell := by
  intro s blocks hs hconfig hfmt hfit hblocks hcap
  obtain ⟨t, hbuild, hbuilt⟩ := (builtCells_dataClear hs blocks).build_rest hfit hcap (cellsInRasterOrder s)
    fun c hc => ⟨hc, (mem_cellsInRasterOrder s c.1 c.2).1 hc |>.elim (hblocks c.1 c.2)⟩
  rw [List.nil_append] at hbuilt
  have hreport := buildCells_keeps_report (cellsInRasterOrder s) (dataClear s)
  rw [hbuild] at hreport
  obtain ⟨hrecord, hasw, -⟩ := hreport
  have hexec := exec_buildCharmap_done hconfig hfmt hfit hbuild
  have hgood := inv_finalizeImage hbuilt.good
  have hperm : (finalizeImage t).dict.Perm t.dict := promoteEmpty_dict_perm hbuilt.good
  have hentries : ∀ b ∈ (finalizeImage t).dict, b ∈ blocks := fun b hb => hbuilt.entries b (hperm.mem_iff.1 hb)
  obtain ⟨-, hnodup⟩ := hgood.dict
  obtain ⟨-, hcells⟩ := hgood.cells
  refine ⟨_, hexec, exec_keeps_outside hexec, ?_, fun k => ?_, fun k c hc => ?_, fun cx cy hx hy => ?_, hnodup, hentries,
    (hnodup.subperm hentries).length_le, ?_, promoteEmpty_zeroBlock hbuilt.good, ?_, ?_⟩
  · rw [finalizeImage_eq]
    exact ⟨hrecord.fault, hrecord.err, hrecord.ign, (promoteEmpty_errCmd t).trans hrecord.errCmd,
      (promoteEmpty_errCell t).trans hrecord.errCell⟩
  · exact (Bool.eq_iff_iff.1 (isSome_promoteEmpty_cells t k)).trans ((hbuilt.written k).trans (exists_cell_iff s k))
  · exact (hcells _ (sparseGet?_mem _ _ _ hc)).2
  · obtain ⟨m, hm, hentry⟩ := hbuilt.named (cx, cy) ((mem_cellsInRasterOrder s cx cy).2 ⟨hx, hy⟩)
    obtain ⟨m', hm', hkept⟩ := promoteEmpty_keeps_naming hbuilt.good hm
    exact ⟨m', _, hm', holdsCell_encodeCell s cx cy, hkept.trans hentry⟩
  · rw [hperm.length_eq, Nat.mul_comm, ← length_cellsInRasterOrder]
    exact hbuilt.count
  · rw [hperm.length_eq, finalizeImage_eq, hbuilt.outside.cfgOffset]
  · have hclear : t.status.asw = false := hasw
    rw [hperm.length_eq, finalizeImage_eq, hbuilt.outside.cfgOffset, hclear, Bool.false_or, decide_eq_true_iff]

end Sys2Proof.Machine
end

section
/-! What the host emits of an image (R192, R203, R226), against what the `READ` commands answer (R202). -/

namespace Sys2Proof.Machine

variable {s : State}

/-! ### `READ` of an entry that holds a value (R202) -/

/-- A `READ` of a value that is there answers it, and changes `RESULT` only. -/
theorem runRead_some (w v : Word) (s : State) : runRead w (some v) s = .next { s with result := v } :=
  runCommand_done _ _ _ _ (by simp [valueCheck])

theorem mapCell?_of_written {k : Nat} {c : MapCell} (hc : sparseGet? s.cells k = some c) (hk : k < s.mapCap) :
    mapCell? s k = some c := by
  simp only [mapCell?, hc, if_pos hk]

theorem exec_readMap_of_written {idx : Index} {c : MapCell} (hc : sparseGet? s.cells idx.toNat = some c)
    (hk : idx.toNat < s.mapCap) :
    exec (.readMap idx) s = .next { s with result := c.idx.setWidth 32 + s.cfgOffset.setWidth 32 } := by
  simp only [exec, execReadMap, mapCell?_of_written hc hk]
  exact runRead_some ..

theorem exec_readCmap_of_written {idx : Index} {c : MapCell} (hc : sparseGet? s.cells idx.toNat = some c)
    (hk : idx.toNat < s.mapCap) : exec (.readCmap idx) s = .next { s with result := c.attr.setWidth 32 } := by
  simp only [exec, execReadCmap, mapCell?_of_written hc hk]
  exact runRead_some ..

theorem exec_readDict_of_byte {idx : Index} {byte v : Byte} (hv : dictByte? s idx.toNat byte.toNat = some v) :
    exec (.readDict idx byte) s = .next { s with result := v.setWidth 32 } := by
  simp only [exec, execReadDict, hv]
  exact runRead_some ..

/-! ### Emission (R192, R203, R226) -/

theorem ofValidImage_of_valid {α : Type} (h : imageValid s) (v : Option α) : ofValidImage s v = v := by
  rw [ofValidImage, h]
  rfl

theorem ofValidImage_of_aborted {α : Type} (h : ¬ imageValid s) (v : Option α) : ofValidImage s v = none :=
  if_pos (eq_true_of_ne_false h)

/-- The emitted byte wraps at 8 bits, where the sum that is read does not wrap (R192, R202). -/
theorem setWidth_add_eq_low_byte (i offset : BitVec 16) :
    (i + offset).setWidth 8 = (i.setWidth 32 + offset.setWidth 32).extractLsb' 0 8 := by
  have hi := i.isLt
  have ho := offset.isLt
  apply BitVec.eq_of_toNat_eq
  rw [toNat_field]
  simp only [BitVec.toNat_setWidth, BitVec.toNat_add]
  omega

theorem low_byte_setWidth (b : Byte) : (b.setWidth 32).extractLsb' 0 8 = b := by
  have hb := b.isLt
  apply BitVec.eq_of_toNat_eq
  rw [toNat_field, BitVec.toNat_setWidth]
  omega

theorem length_charset (d : List Block) : (d.flatMap fun b => b.toList).length = 8 * d.length := by
  simp [List.length_flatMap, Nat.mul_comm]

/-- The character set lists the dictionary entry by entry. -/
theorem getElem?_charset (d : List Block) (i : Nat) {j : Nat} (hj : j < 8) :
    (d.flatMap fun b => b.toList)[8 * i + j]? = d[i]?.bind fun b => b[j]? := by
  rw [Nat.mul_comm, getElem?_flatMap_row d (by simp) i hj]
  simp

/-- Settles O51: each emitted byte is the low byte of the answer of the `READ` of that entry, and an aborted image is
discarded. -/
theorem emissionOfAValidImageIsWhatReadsAnswer : Obligations.EmissionOfAValidImageIsWhatReadsAnswer := by
  intro s
  refine ⟨fun hvalid => ⟨fun idx c hc hk => ?_, ?_⟩, fun habort => ?_⟩
  · refine ⟨_, _, exec_readMap_of_written hc hk, ?_, exec_readCmap_of_written hc hk, ?_⟩
    · rw [emittedMapByte, ofValidImage_of_valid hvalid, hc, Option.map_some, setWidth_add_eq_low_byte]
    · rw [emittedAttribute, ofValidImage_of_valid hvalid, hc, Option.map_some, low_byte_setWidth]
  · refine ⟨_, ofValidImage_of_valid hvalid _, length_charset s.dict, fun idx byte hidx hbyte => ?_⟩
    have hvalue : dictByte? s idx.toNat byte.toNat = some s.dict[idx.toNat][byte.toNat] := by
      simp [dictByte?, hidx, hbyte]
    refine ⟨_, exec_readDict_of_byte hvalue, ?_⟩
    rw [low_byte_setWidth, getElem?_charset s.dict idx.toNat hbyte]
    exact hvalue
  · exact ⟨fun _ => ⟨ofValidImage_of_aborted habort _, ofValidImage_of_aborted habort _⟩, ofValidImage_of_aborted habort _⟩

end Sys2Proof.Machine
end

section
/-! The AddressSpaceWarning is sticky (R191). -/

namespace Sys2Proof.Machine

/-- Of a report that is the same, the warning is the same. -/
theorem SameReport.keeps_warning {s t : State} (h : SameReport s t) (hs : s.status.asw = true) : t.status.asw = true :=
  h.asw.trans hs

/-- Settles O55: `FINALIZE` writes the warning by an OR, and the other commands without a data clear do not write it. -/
theorem theWarningStandsUntilADataClear : Obligations.TheWarningStandsUntilADataClear := by
  intro i s t hclear hcharmap h hs
  have hfault : KeptByFaults fun u => u.status.asw = true := fun _ _ _ _ _ hu => hu
  have hresult : ∀ r u, u.status.asw = true → (setResult r u).status.asw = true := fun _ _ hu => hu
  cases i
  all_goals simp only [exec] at h
  case clear => exact absurd rfl hclear
  case buildCharmap => exact absurd rfl hcharmap
  case roleReset => exact runCommand_keeps h hfault (by simp) hs fun _ => hs
  case resolve ctx width pix => exact runCommand_keeps h hfault (by simp) hs fun _ => hs
  case detect ctx x y => exact runCommand_keeps h hfault (by simp) hs fun _ => hs
  case encode ctx wsel x y => exact runCommand_keeps h hfault (by simp) hs fun _ => hs
  case lookupInsert =>
    exact execLookupInsert_keeps h hfault hs hresult
      ((lookupOrInsert_keeps_rest ..).imp fun _ ⟨_, hreport, _⟩ => hreport.keeps_warning hs)
  case promoteEmpty =>
    exact runCommand_keeps h hfault (by simp) hs fun _ => by rwa [Attempt.Keeps, promoteEmpty_status]
  case buildCell cx cy =>
    exact execBuildCell_keeps h hfault hs hresult fun _ =>
      (cellStep_keeps_rest ..).imp fun _ ⟨_, hreport⟩ => hreport.keeps_warning hs
  case finalize =>
    exact runCommand_keeps h hfault (by simp) hs fun _ => by rw [Attempt.Keeps, finalizeImage_eq, hs, Bool.true_or]
  case readDict idx byte => exact runRead_keeps h hfault hs fun _ => hs
  case readMap idx => exact runRead_keeps h hfault hs fun _ => hs
  case readCmap idx => exact runRead_keeps h hfault hs fun _ => hs
  case readBuf byte => exact runRead_keeps h hfault hs fun _ => hs

end Sys2Proof.Machine
end

section
/-! `CTRL.ATTR_EN` is for the host alone (R33, R187): every operation of the unit commutes with a change of that bit. -/

namespace Sys2Proof.Machine

/-- `s` with the other value of `CTRL.ATTR_EN`. -/
def flipAttrEnable (s : State) : State := { s with ctrl := s.ctrl ^^^ 2#3 }

/-- What an operation answers, with the other value of `CTRL.ATTR_EN` in the state that it leaves. -/
def Attempt.flipAttrEnable {α : Type} : Attempt α → Attempt α
  | .done v t => .done v (Machine.flipAttrEnable t)
  | .raised code cell t => .raised code cell (Machine.flipAttrEnable t)

/-- Both outcomes are next states, which differ in `CTRL.ATTR_EN` only. -/
def SameButAttrEnable (o o' : Host.Outcome State Fault Refusal) : Prop :=
  ∃ t, o = .next t ∧ o' = .next (flipAttrEnable t)

/-- A command commutes with the change when its checks and its body do. -/
theorem runCommand_flipAttrEnable (w : Word) (cs : List Check) (s : State) (body : Attempt Unit) :
    SameButAttrEnable (runCommand w cs s body) (runCommand w cs (flipAttrEnable s) body.flipAttrEnable) := by
  unfold runCommand
  cases firstFailing cs with
  | some c => exact ⟨_, rfl, rfl⟩
  | none =>
    cases body with
    | done v t => exact ⟨t, rfl, rfl⟩
    | raised code cell t => exact ⟨_, rfl, rfl⟩

theorem runRead_flipAttrEnable (w : Word) (v : Option Word) (s : State) :
    SameButAttrEnable (runRead w v s) (runRead w v (flipAttrEnable s)) := runCommand_flipAttrEnable ..

variable (s : State)

/-! ### The width of a block and its encoding -/

/-- `MODE` and `MARK_POL` are other bits than `ATTR_EN` (R33). -/
theorem getLsbD_flipAttrEnable_ctrl :
    (flipAttrEnable s).ctrl.getLsbD 0 = s.ctrl.getLsbD 0 ∧ (flipAttrEnable s).ctrl.getLsbD 2 = s.ctrl.getLsbD 2 := by
  have hbits : ∀ c : BitVec 3, (c ^^^ 2#3).getLsbD 0 = c.getLsbD 0 ∧ (c ^^^ 2#3).getLsbD 2 = c.getLsbD 2 := by decide
  exact hbits s.ctrl

theorem effectiveMode_flipAttrEnable : effectiveMode (flipAttrEnable s) = effectiveMode s := by
  rw [effectiveMode_eq, effectiveMode_eq, (getLsbD_flipAttrEnable_ctrl s).1]
  rfl

theorem autoWidth_flipAttrEnable (x0 y0 : Nat) (ctx : Context) :
    autoWidth (flipAttrEnable s) x0 y0 ctx = autoWidth s x0 y0 ctx := by
  rw [autoWidth, effectiveMode_flipAttrEnable]
  rfl

theorem encodeWidth_flipAttrEnable (wsel : WidthSel) (x0 y0 : Nat) (ctx : Context) :
    encodeWidth (flipAttrEnable s) wsel x0 y0 ctx = encodeWidth s wsel x0 y0 ctx := by
  cases wsel <;> simp only [encodeWidth, autoWidth_flipAttrEnable]

theorem encodeBlock_flipAttrEnable (x0 y0 : Nat) (ctx : Context) (width : PixelWidth) :
    encodeBlock x0 y0 ctx width (flipAttrEnable s) = flipAttrEnable (encodeBlock x0 y0 ctx width s) := rfl

theorem encodeBody_flipAttrEnable (ctx : Context) (wsel : WidthSel) (x0 y0 : Nat) :
    encodeBody ctx wsel x0 y0 (flipAttrEnable s) = flipAttrEnable (encodeBody ctx wsel x0 y0 s) := by
  rw [encodeBody, encodeWidth_flipAttrEnable, encodeBlock_flipAttrEnable]
  rfl

theorem encodeCell_flipAttrEnable (cx cy : Nat) :
    encodeCell cx cy (flipAttrEnable s) = flipAttrEnable (encodeCell cx cy s) := by
  rw [encodeCell, autoWidth_flipAttrEnable, encodeBlock_flipAttrEnable]
  rfl

/-! ### Insertion, promotion and the cell sequencer -/

theorem lookupOrInsert_flipAttrEnable (b : Block) (cell : Word) :
    lookupOrInsert b cell (flipAttrEnable s) = (lookupOrInsert b cell s).flipAttrEnable := by
  rcases lookupOrInsert_cases b cell s with ⟨i, hi, h⟩ | ⟨hb, hfull, h⟩ | ⟨hb, hroom, h⟩ <;> rw [h]
  · exact lookupOrInsert_of_found (s := flipAttrEnable s) hi cell
  · exact lookupOrInsert_of_full (s := flipAttrEnable s) hb hfull cell
  · exact lookupOrInsert_of_room (s := flipAttrEnable s) hb hroom cell

theorem promoteEmpty_flipAttrEnable : promoteEmpty (flipAttrEnable s) = flipAttrEnable (promoteEmpty s) := by
  rcases promoteEmpty_cases s with ⟨e, he, h0, h⟩ | ⟨hrec, h⟩ <;> rw [h]
  · exact promoteEmpty_moves (s := flipAttrEnable s) he h0
  · exact promoteEmpty_stays (s := flipAttrEnable s) rfl hrec

theorem finalizeImage_flipAttrEnable : finalizeImage (flipAttrEnable s) = flipAttrEnable (finalizeImage s) := by
  rw [finalizeImage_eq, finalizeImage_eq, promoteEmpty_flipAttrEnable]
  rfl

theorem attributeByte_flipAttrEnable (em : PixelWidth) (hb : Bool) :
    attributeByte (flipAttrEnable s) em hb = attributeByte s em hb := by
  have hpolarity : markPolarity (flipAttrEnable s) = markPolarity s := (getLsbD_flipAttrEnable_ctrl s).2
  simp only [attributeByte, markerSet, hpolarity]
  rfl

theorem builtCell_flipAttrEnable (cx cy : Nat) (i : Index) (t : State) :
    builtCell cx cy (flipAttrEnable s) i (flipAttrEnable t) = builtCell cx cy s i t := by
  rw [builtCell, effectiveMode_flipAttrEnable, autoWidth_flipAttrEnable, attributeByte_flipAttrEnable]
  rfl

theorem cellStep_flipAttrEnable (cx cy k : Nat) :
    cellStep cx cy k (flipAttrEnable s) = (cellStep cx cy k s).flipAttrEnable := by
  have hlookup : lookupOrInsert (bufBlock (encodeCell cx cy (flipAttrEnable s))) (BitVec.ofNat 32 k)
      (encodeCell cx cy (flipAttrEnable s)) =
        (lookupOrInsert (bufBlock (encodeCell cx cy s)) (BitVec.ofNat 32 k) (encodeCell cx cy s)).flipAttrEnable := by
    rw [encodeCell_flipAttrEnable]
    exact lookupOrInsert_flipAttrEnable ..
  cases hl : lookupOrInsert (bufBlock (encodeCell cx cy s)) (BitVec.ofNat 32 k) (encodeCell cx cy s) with
  | done v t =>
    rw [hl] at hlookup
    rw [cellStep_of_done hl, cellStep_of_done hlookup, builtCell_flipAttrEnable]
    rfl
  | raised code cell t =>
    rw [hl] at hlookup
    rw [cellStep_of_raised hl, cellStep_of_raised hlookup]
    rfl

theorem buildCells_flipAttrEnable (cells : List (Nat × Nat)) :
    buildCells cells (flipAttrEnable s) = (buildCells cells s).flipAttrEnable := by
  induction cells generalizing s with
  | nil => rfl
  | cons c rest ih =>
    obtain ⟨cx, cy⟩ := c
    have hindex : cellIndex (flipAttrEnable s) cx cy = cellIndex s cx cy := rfl
    rw [buildCells_cons, buildCells_cons, hindex, cellStep_flipAttrEnable]
    cases cellStep cx cy (cellIndex s cx cy) s with
    | done v t => exact ih t
    | raised code cell t => rfl

/-! ### The commands -/

/-- Settles O56, command by command: the checks do not read `CTRL`, and the body commutes with the change. -/
theorem attributeEnableChangesNothing : Obligations.AttributeEnableChangesNothing := by
  intro i s
  suffices h : SameButAttrEnable (exec i s) (exec i (flipAttrEnable s)) from h
  cases i
  all_goals simp only [exec]
  case clear => exact runCommand_flipAttrEnable ..
  case roleReset => exact runCommand_flipAttrEnable ..
  case resolve ctx width pix => exact runCommand_flipAttrEnable ..
  case detect ctx x y => exact runCommand_flipAttrEnable ..
  case encode ctx wsel x y =>
    rw [execEncode, execEncode, encodeBody_flipAttrEnable]
    exact runCommand_flipAttrEnable ..
  case lookupInsert =>
    have hblock : bufBlock (flipAttrEnable s) = bufBlock s := rfl
    rw [execLookupInsert, execLookupInsert, hblock, lookupOrInsert_flipAttrEnable]
    cases lookupOrInsert (bufBlock s) noCell s <;> exact runCommand_flipAttrEnable ..
  case promoteEmpty =>
    rw [execPromoteEmpty, execPromoteEmpty, promoteEmpty_flipAttrEnable]
    exact runCommand_flipAttrEnable ..
  case buildCell cx cy =>
    have hindex : cellIndex (flipAttrEnable s) cx.toNat cy.toNat = cellIndex s cx.toNat cy.toNat := rfl
    rw [execBuildCell, execBuildCell, hindex, cellStep_flipAttrEnable]
    cases cellStep cx.toNat cy.toNat (cellIndex s cx.toNat cy.toNat) s <;> exact runCommand_flipAttrEnable ..
  case buildCharmap =>
    have hcells : cellsInRasterOrder (flipAttrEnable s) = cellsInRasterOrder s := rfl
    have hclear : dataClear (flipAttrEnable s) = flipAttrEnable (dataClear s) := rfl
    rw [execBuildCharmap, execBuildCharmap, hcells, hclear, buildCells_flipAttrEnable]
    cases buildCells (cellsInRasterOrder s) (dataClear s) with
    | done v t =>
      simp only [Attempt.flipAttrEnable, finalizeImage_flipAttrEnable]
      exact runCommand_flipAttrEnable ..
    | raised code cell t => exact runCommand_flipAttrEnable ..
  case finalize =>
    rw [execFinalize, execFinalize, finalizeImage_flipAttrEnable]
    exact runCommand_flipAttrEnable ..
  case readDict idx byte => exact runRead_flipAttrEnable ..
  case readMap idx => exact runRead_flipAttrEnable ..
  case readCmap idx => exact runRead_flipAttrEnable ..
  case readBuf byte => exact runRead_flipAttrEnable ..

end Sys2Proof.Machine
end

section
/-! The register map under a bus access (R32, R204, R205): which register an offset names, what a write sets in each field,
what each register then reads, and how an access steps. -/

namespace Sys2Proof.Machine

/-! ### Offsets (R32) -/

theorem regAt_reserved {n : Nat} (h : 23 ≤ n) : regAt n = .reserved := by
  unfold regAt
  split
  case h_24 => rfl
  all_goals omega

theorem eq_of_regAt_eq_cmd {n : Nat} (h : regAt n = .cmd) : n = 11 := by
  unfold regAt at h
  split at h
  case h_12 => rfl
  all_goals cases h

/-- `CMD` is at `0x2C` only. -/
theorem regOfOffset_ne_cmd {off : Byte} (halign : off.toNat % 4 = 0) (h : off ≠ 0x2C#8) : regOfOffset off ≠ .cmd := by
  intro hreg
  have hword : off.toNat / 4 = 11 := eq_of_regAt_eq_cmd hreg
  exact h (BitVec.eq_of_toNat_eq (by rw [BitVec.toNat_ofNat]; omega))

theorem regOfOffset_reserved {off : Byte} (h : 0x5C ≤ off.toNat) : regOfOffset off = .reserved :=
  regAt_reserved (by omega)

/-- From `CMD` on, no register takes a write. -/
theorem definedBits_regAt_eq_zero {n : Nat} (h : 11 ≤ n) : definedBits (regAt n) = 0#32 := by
  rcases Nat.lt_or_ge n 23 with hn | hn
  · interval_cases n <;> rfl
  · rw [regAt_reserved hn]
    rfl

/-! ### A write, field by field (R205) -/

/-- Each field is the value's defined bits if its register is written, and stands otherwise. -/
theorem writeReg_eq (r : Reg) (v : Word) (s : State) : writeReg r v s =
    { s with
      ctrl := if r = .ctrl then v.extractLsb' 0 3 else s.ctrl
      cfgBg := if r = .cfgBg then v.extractLsb' 0 9 else s.cfgBg
      cfgFg := if r = .cfgFg then v.extractLsb' 0 9 else s.cfgFg
      cfgMc := if r = .cfgMc then v.extractLsb' 0 17 else s.cfgMc
      cfgHint := if r = .cfgHint then v.extractLsb' 0 9 else s.cfgHint
      cfgOffset := if r = .cfgOffset then v.extractLsb' 0 16 else s.cfgOffset
      cfgAttr := if r = .cfgAttr then v else s.cfgAttr
      cfgSprPad := if r = .cfgSprPad then v.extractLsb' 0 8 else s.cfgSprPad
      rasterDim := if r = .rasterDim then v else s.rasterDim
      rasterFmt := if r = .rasterFmt then v.extractLsb' 0 1 else s.rasterFmt } := by
  have hfield : ∀ n ≤ 32, v.extractLsb' 0 n = v.setWidth n := fun _ hn => (BitVec.setWidth_eq_extractLsb' hn).symm
  cases r <;> simp [writeReg, hfield]

/-- An RO or reserved register drops the write. -/
theorem writeReg_of_no_defined_bits {r : Reg} (h : definedBits r = 0#32) (v : Word) (s : State) : writeReg r v s = s := by
  cases r
  case ctrl | cfgBg | cfgFg | cfgMc | cfgHint | cfgOffset | cfgAttr | cfgSprPad | rasterDim | rasterFmt =>
    exact absurd h (by decide)
  all_goals rfl

/-! ### A read after a write (R204, R205) -/

/-- The low bits of a value, read back into a word, are a mask of the value. -/
theorem setWidth_setWidth_eq_and (v : Word) {n : Nat} (hn : n ≤ 32) :
    (v.setWidth n).setWidth 32 = v &&& BitVec.ofNat 32 (2 ^ n - 1) := by
  have hpow : 2 ^ n ≤ 2 ^ 32 := Nat.pow_le_pow_right (by decide) hn
  have hmask : 2 ^ n - 1 < 2 ^ 32 := by have := Nat.two_pow_pos n; omega
  apply BitVec.eq_of_toNat_eq
  rw [BitVec.toNat_setWidth_of_le hn, BitVec.toNat_setWidth, BitVec.toNat_and, BitVec.toNat_ofNat, Nat.mod_eq_of_lt hmask,
    Nat.and_two_pow_sub_one_eq_mod]

theorem readReg_writeReg_same {r : Reg} (h : definedBits r ≠ 0#32) (v : Word) (s : State) :
    readReg r (writeReg r v s) = v &&& definedBits r := by
  cases r
  case ctrl => exact setWidth_setWidth_eq_and v (n := 3) (by decide)
  case cfgBg => exact setWidth_setWidth_eq_and v (n := 9) (by decide)
  case cfgFg => exact setWidth_setWidth_eq_and v (n := 9) (by decide)
  case cfgMc => exact setWidth_setWidth_eq_and v (n := 17) (by decide)
  case cfgHint => exact setWidth_setWidth_eq_and v (n := 9) (by decide)
  case cfgOffset => exact setWidth_setWidth_eq_and v (n := 16) (by decide)
  case cfgAttr => exact BitVec.and_allOnes.symm
  case cfgSprPad => exact setWidth_setWidth_eq_and v (n := 8) (by decide)
  case rasterDim => exact BitVec.and_allOnes.symm
  case rasterFmt => exact setWidth_setWidth_eq_and v (n := 1) (by decide)
  all_goals exact absurd rfl h

/-- A register other than the written one reads as before, but for `MAP_DIM`, which is derived from `RASTER_DIM` (R54). -/
theorem readReg_writeReg_other {r q : Reg} (hne : q ≠ r) (hmap : q ≠ .mapDim) (v : Word) (s : State) :
    readReg q (writeReg r v s) = readReg q s := by
  rw [writeReg_eq]
  cases q
  case mapDim => exact absurd rfl hmap
  all_goals simp [readReg, dictCount, hne.symm]

/-- What is pending is in no register (log entry 3). -/
theorem readReg_withQueue (r : Reg) (s : State) (rest : List HostEvent) :
    readReg r { s with queue := rest } = readReg r s := by
  cases r <;> rfl

/-! ### The step of an access (R204, R205) -/

theorem checkedAccess_aligned_word {off : Byte} (halign : off.toNat % 4 = 0) (o : Host.Outcome State Fault Refusal) :
    checkedAccess .word off o = o := by
  simp [checkedAccess, halign]

variable {s : State} {off : Byte} {rest : List HostEvent}

theorem step_read (hq : s.queue = .read .word off :: rest) (halign : off.toNat % 4 = 0) :
    step s = .next { s with queue := rest, busData := readReg (regOfOffset off) s } := by
  rw [step_event s _ rest hq, hostEvent, checkedAccess_aligned_word halign, busRead, readReg_withQueue]

theorem step_write {v : Word} (hq : s.queue = .write .word off v :: rest) (halign : off.toNat % 4 = 0)
    (hcmd : off ≠ 0x2C#8) : step s = .next (writeReg (regOfOffset off) v { s with queue := rest }) := by
  rw [step_event s _ rest hq, hostEvent, checkedAccess_aligned_word halign,
    busWrite_config _ _ _ (regOfOffset_ne_cmd halign hcmd)]

/-- Settles O12: the step is the write of the register that the offset names. -/
theorem busWriteSetsTheDefinedBits : Obligations.BusWriteSetsTheDefinedBits := by
  intro s off v rest hq halign hcmd
  have hdropped : definedBits (regOfOffset off) = 0#32 →
      writeReg (regOfOffset off) v { s with queue := rest } = { s with queue := rest } :=
    fun hbits => writeReg_of_no_defined_bits hbits v _
  refine ⟨writeReg (regOfOffset off) v { s with queue := rest }, step_write hq halign hcmd, writeReg_queue ..,
    ?_, ?_, ?_, ?_, ?_, ?_, ?_, ?_, ?_, ?_, ?readOnly, fun hbits => readReg_writeReg_same hbits v _, hdropped,
    ?others, ⟨writeReg_dict .., writeReg_emptyRec .., writeReg_cells ..⟩, writeReg_buf .., writeReg_status ..,
    writeReg_roles .., writeReg_result .., writeReg_raster .., writeReg_busData .., writeReg_dictCap .., writeReg_mapCap ..⟩
  case readOnly =>
    rintro (habove | rfl)
    · exact hdropped (definedBits_regAt_eq_zero (by omega))
    · rfl
  case others =>
    intro r hne hmap
    rw [readReg_writeReg_other hne hmap, readReg_withQueue]
  all_goals
    rintro rfl
    exact writeReg_eq ..

/-! ### The packed words (R51, R54) -/

theorem toNat_emptyRecWord (e : Option Index) :
    (emptyRecWord e).toNat = (e.getD 0#16).toNat + 2 ^ 31 * e.isNone.toNat := by
  simp only [emptyRecWord, BitVec.toNat_setWidth_of_le (show 1 + 15 + 16 ≤ 32 by decide), toNat_append_mul,
    BitVec.toNat_ofBool, BitVec.toNat_ofNat]
  omega

theorem emptyRecWord_fields (e : Option Index) :
    (emptyRecWord e).getLsbD 31 = e.isNone ∧ (emptyRecWord e).extractLsb' 16 15 = 0#15 ∧
      (emptyRecWord e).extractLsb' 0 16 = e.getD 0#16 := by
  have hval := toNat_emptyRecWord e
  have hidx := (e.getD 0#16).isLt
  have hnone := e.isNone.toNat_le
  refine ⟨getLsbD_eq_of_div_mod ?_, extractLsb'_eq_of_div_mod ?_, extractLsb'_eq_of_div_mod ?_⟩ <;> bv_omega

theorem readReg_mapDim_fields (s : State) :
    ((readReg .mapDim s).extractLsb' 0 16).toNat = mapWidth s ∧
      ((readReg .mapDim s).extractLsb' 16 16).toNat = mapHeight s := by
  have hw : rasterWidth s < 2 ^ 16 := (s.rasterDim.extractLsb' 0 16).isLt
  have hh : rasterHeight s < 2 ^ 16 := (s.rasterDim.extractLsb' 16 16).isLt
  rw [toNat_field, toNat_field, toNat_readReg_mapDim, mapWidth, mapHeight]
  omega

/-- Settles O8: the step returns what the register reads as, and each offset names its register. -/
theorem busReadReturnsTheRegister : Obligations.BusReadReturnsTheRegister := by
  intro s off rest hq halign
  refine ⟨readReg (regOfOffset off) s, step_read hq halign, rfl,
    ?_, ?_, ?_, ?_, ?_, ?_, ?_, ?_, ?_, ?_, ?_, ?_, ?_, ?_, ?_, ?_, ?_, ?_, ?emptyRec, ?mapDim, ?reserved⟩
  case emptyRec =>
    rintro rfl
    exact emptyRecWord_fields s.emptyRec
  case mapDim =>
    rintro rfl
    exact readReg_mapDim_fields s
  case reserved =>
    intro habove
    rw [regOfOffset_reserved habove]
    rfl
  all_goals
    rintro rfl
    rfl

end Sys2Proof.Machine
end

section
/-! `CLEAR`, and the `READ` commands where an entry holds no value (R201, R202, R223 case 3). -/

namespace Sys2Proof.Machine

/-! ### `CLEAR` (R200, R201) -/

/-- Settles O48: `CLEAR` makes no check, and its body resets every flag. -/
theorem clearStartsAFreshImage : Obligations.ClearStartsAFreshImage := by
  intro s
  have hflags : faultFreeFlags (dataClearFlags s.status) = Status.clear := rfl
  have hbody : exec .clear s = .next (clearBody s) := runCommand_done (encode .clear) [] s _ (by simp)
  rw [hbody, clearBody, leaveFault, dataClear, hflags]
  rfl

/-! ### `READ` (R202) -/

variable {s : State}

/-- A `READ` of a value that is not there raises RangeError and concerns no cell. -/
theorem runRead_none (w : Word) (s : State) : runRead w none s = .next (faulted w 5#4 0xFFFFFFFF#32 s) :=
  runCommand_faulted (firstFailing_of_fails (c := valueCheck false) rfl []) ..

theorem dictByte?_eq_none {i j : Nat} (h : s.dict.length ≤ i ∨ 8 ≤ j) : dictByte? s i j = none := by
  rw [dictByte?]
  rcases h with hi | hj
  · rw [List.getElem?_eq_none hi, Option.bind_none]
  · exact Option.bind_eq_none_iff.2 fun b _ => Vector.getElem?_eq_none hj

theorem mapCell?_eq_none {k : Nat} (h : sparseGet? s.cells k = none ∨ s.mapCap ≤ k) : mapCell? s k = none := by
  unfold mapCell?
  split
  case h_1 c hc =>
    have hcap : s.mapCap ≤ k := h.resolve_left (by simp [hc])
    exact if_neg hcap.not_gt
  case h_2 => rfl

/-- A buffered character has 8 bytes, and a sprite 64 (R48). -/
theorem lt_bufferLength_iff {j : Nat} : j < bufferLength s ↔ j < 8 ∨ (s.status.blkSpr = true ∧ j < 64) := by
  rw [bufferLength]
  cases s.status.blkSpr
  · simp
  · simp only [if_true, true_and]
    omega

theorem bufferLength_le_iff {j : Nat} : bufferLength s ≤ j ↔ (s.status.blkSpr = false ∧ 8 ≤ j) ∨ 64 ≤ j := by
  rw [← not_lt, lt_bufferLength_iff]
  cases s.status.blkSpr
  · simp only [Bool.false_eq_true, false_and, or_false, true_and]
    omega
  · simp only [true_and, Bool.true_eq_false, false_and, false_or]
    omega

theorem bufByte?_eq_some {j : Nat} (hv : s.status.blkV = true) (hj : j < bufferLength s) :
    bufByte? s j = some (bufByte s.buf j) := by
  simp [bufByte?, hv, hj]

theorem bufByte?_eq_none {j : Nat} (h : s.status.blkV = false ∨ bufferLength s ≤ j) : bufByte? s j = none := by
  rw [bufByte?]
  rcases h with hv | hj
  · simp [hv]
  · simp [hj]

/-- Settles O49: the byte of an entry below the count is there, and outside none is. -/
theorem readDictAnswersTheByte : Obligations.ReadDictAnswersTheByte := by
  intro idx byte s
  refine ⟨fun b v hb hv => exec_readDict_of_byte ?_, fun hout => ?_⟩
  · rw [dictByte?, hb, Option.bind_some, hv]
  · simp only [exec, execReadDict, dictByte?_eq_none hout]
    exact runRead_none ..

/-- The sum that `READ.MAP` answers does not wrap: both terms have 16 bits. -/
theorem setWidth_add_setWidth_eq_ofNat (i offset : BitVec 16) :
    i.setWidth 32 + offset.setWidth 32 = BitVec.ofNat 32 (i.toNat + offset.toNat) := by
  bv_omega

/-- Settles O50: a written cell below the capacity is there, and any other is not. -/
theorem readMapsAnswerTheCell : Obligations.ReadMapsAnswerTheCell := by
  intro idx s
  refine ⟨fun c hc hk => ⟨?_, exec_readCmap_of_written hc hk⟩, fun hout => ?_⟩
  · rw [exec_readMap_of_written hc hk, setWidth_add_setWidth_eq_ofNat]
  · simp only [exec, execReadMap, execReadCmap, mapCell?_eq_none hout]
    exact ⟨runRead_none .., runRead_none ..⟩

/-- Settles O52: the bytes that `READ.BUF` answers are those below the length of the buffered block. -/
theorem readBufAnswersTheByte : Obligations.ReadBufAnswersTheByte := by
  intro byte s
  refine ⟨fun hv hin => ?_, fun hout => ?_⟩
  · have hbuf : byte.toNat < 64 := by omega
    have hbyte : s.buf[byte.toNat]? = some s.buf[byte.toNat] := Vector.getElem?_eq_getElem hbuf
    refine ⟨s.buf[byte.toNat], hbyte, ?_⟩
    simp only [exec, execReadBuf, bufByte?_eq_some hv (lt_bufferLength_iff.2 hin), bufByte, hbyte]
    exact runRead_some ..
  · simp only [exec, execReadBuf, bufByte?_eq_none (hout.imp_right bufferLength_le_iff.2)]
    exact runRead_none ..

end Sys2Proof.Machine
end

section
/-! Command issue (R43, R227): a write to `CMD` steps as the dispatcher, and only `CLEAR` and the hardware reset leave the
fault state (R233). -/

namespace Sys2Proof.Machine

variable {s : State} {w : Word}

/-! ### The dispatcher (R227) -/

theorem issue_clear_of_fault (hf : s.status.fault = true) : issue 0#32 s = exec .clear s := by
  rw [issue, if_pos hf, if_pos rfl]

theorem issue_ignored_of_fault (hf : s.status.fault = true) (hw : w ≠ 0#32) : issue w s = .next (ignoreCommand s) := by
  rw [issue, if_pos hf, if_neg hw]

theorem issue_of_legal {i : Instr} (hf : s.status.fault = false) (hd : decode w = .legal i) : issue w s = exec i s := by
  simp [issue, hf, hd]

theorem issue_of_illegal {r : IllegalReason} (hf : s.status.fault = false) (hd : decode w = .illegal r) :
    issue w s = .next (raiseFault w .illegalCommand noCell s) := by
  simp [issue, hf, hd]

theorem step_command {rest : List HostEvent} (hq : s.queue = .write .word 0x2C#8 w :: rest) :
    step s = issue w { s with queue := rest } := by
  rw [step_event s _ rest hq, hostEvent, checkedAccess_aligned_word (by decide), busWrite_cmd _ _ _ rfl]

/-- Settles O5: the step is the dispatcher's, which looks at the fault first and then at the word. -/
theorem stepRunsTheIssuedCommand : Obligations.StepRunsTheIssuedCommand := by
  intro s w rest hq
  rw [step_command hq]
  refine ⟨?_, fun hf hw => issue_ignored_of_fault hf hw, fun hf _ => issue_of_legal hf, fun hf _ => issue_of_illegal hf⟩
  rintro hf rfl
  exact issue_clear_of_fault hf

/-- The decoder of the table's numbering reads the word that `withFetchWord` places. -/
theorem decode_of_decodeTableWord {nbits n : Nat} {i : Instr} (h : decodeTableWord nbits n = some i) :
    decode (BitVec.ofNat 32 (n % 2 ^ nbits)) = .legal i := by
  unfold decodeTableWord tableWord at h
  split at h
  case h_1 v hv =>
    obtain rfl : BitVec.ofNat 32 (n % 2 ^ nbits) = v := by
      split at hv
      · exact Option.some.inj hv
      · cases hv
    split at h
    case h_1 j hj =>
      cases h
      exact hj
    case h_2 => cases h
  case h_2 => cases h

/-- Settles O6: the placed write to `CMD` is taken off again, and the dispatcher runs the legal word. -/
theorem stepRunsTheDecodedWord : Obligations.StepRunsTheDecodedWord := by
  intro s nbits n i hf h
  have hstep : step (s.withFetchWord nbits n) = issue (BitVec.ofNat 32 (n % 2 ^ nbits)) s := step_command rfl
  rw [hstep, issue_of_legal hf (decode_of_decodeTableWord h)]

/-! ### Leaving the fault state (R233) -/

/-- A write that reaches a register is at a multiple of 4 (R75). -/
theorem aligned_of_step_write {t : State} {off : Byte} {rest : List HostEvent}
    (hq : s.queue = .write .word off w :: rest) (h : step s = .next t) : off.toNat % 4 = 0 := by
  by_contra hoff
  obtain ⟨o, hstep⟩ := step_access (.inr hq)
  rw [hstep, checkedAccess_unaligned hoff] at h
  cases h

/-- While a fault stands, only the word 0 makes the dispatcher leave it. -/
theorem eq_zero_of_issue_leaves_fault {t : State} (hf : s.status.fault = true) (h : issue w s = .next t)
    (ht : t.status.fault = false) : w = 0#32 := by
  by_contra hw
  rw [issue_ignored_of_fault hf hw] at h
  cases h
  exact absurd (hf.symm.trans ht) (by decide)

/-- Settles O57, by what the next event from outside is: bus reads, writes of other registers and the raster connection
leave the flags as they are. -/
theorem onlyClearAndResetLeaveTheFaultState : Obligations.OnlyClearAndResetLeaveTheFaultState := by
  intro s t hf h ht
  have hchanged : t.status ≠ s.status := fun hsame => absurd (hf.symm.trans (hsame ▸ ht)) (by decide)
  rcases step_next_cases s t h with ⟨-, rfl⟩ | ⟨e, rest, hq, hevent⟩
  · exact absurd rfl hchanged
  · rcases hevent with
      ⟨off, -, rfl⟩ | ⟨off, v, -, -, rfl⟩ | ⟨off, v, rfl, hcmd, hissue⟩ | ⟨pixels, -, -, rfl⟩ | ⟨rfl, -⟩
    · exact absurd rfl hchanged
    · exact absurd (writeReg_status ..) hchanged
    · obtain rfl : off = 0x2C#8 := by_contra fun hoff => regOfOffset_ne_cmd (aligned_of_step_write hq h) hoff hcmd
      obtain rfl : v = 0#32 := eq_zero_of_issue_leaves_fault (s := { s with queue := rest }) hf hissue ht
      exact ⟨rest, .inl hq⟩
    · exact absurd rfl hchanged
    · exact ⟨rest, .inr hq⟩

end Sys2Proof.Machine
end

section
/-! Which fault a command raises first (R228): SequenceError (R230), FormatError (R221) and RangeError (R223 cases 1
and 2). -/

namespace Sys2Proof.Machine

variable {s : State}

/-- Settles O36: the one check of `LOOKUP_INSERT` fails. -/
theorem lookupWithoutACharacterRaisesSequenceError : Obligations.LookupWithoutACharacterRaisesSequenceError := by
  intro s hnone
  have hfails : (sequenceCheck s).fails = true := (sequenceCheck_fails s).2 hnone
  exact runCommand_faulted (firstFailing_of_fails hfails _) ..

/-! ### The checks that pass before (R228) -/

theorem wselCheck_passes {wsel : WidthSel} (h : wsel ≠ .reserved) : (wselCheck wsel).fails = false := by
  rwa [← Bool.not_eq_true, wselCheck_fails]

theorem wsel_ne_reserved_of_wellFormed {ctx : Context} {wsel : WidthSel} {x y : BitVec 12}
    (h : (Instr.encode ctx wsel x y).wellFormed = true) : wsel ≠ .reserved := by
  rintro rfl
  cases h

theorem widthCheck_passes {wsel : WidthSel} (h : ¬ (wsel = .multicolor ∧ s.cfgFg.getLsbD 8 = true)) :
    (widthCheck s (wsel == .multicolor)).fails = false := by
  rw [widthCheck_fails, ← Bool.not_eq_true, Bool.and_eq_true, beq_iff_eq]
  exact h

theorem asksMulticolor_encode {ctx : Context} {wsel : WidthSel} {x y : BitVec 12} (h : wsel = .multicolor) :
    asksMulticolor (.encode ctx wsel x y) := by
  rw [h]
  trivial

/-- Past the checks of its operand and the configuration, the checks of the raster decide `ENCODE`. -/
theorem firstFailing_encode {wsel : WidthSel} (hwsel : wsel ≠ .reserved) (hconfig : configOk s)
    (hwidth : ¬ (wsel = .multicolor ∧ s.cfgFg.getLsbD 8 = true)) (cs : List Check) :
    firstFailing (wselCheck wsel :: configCheck s :: widthCheck s (wsel == .multicolor) :: cs) = firstFailing cs :=
  calc
    _ = firstFailing (configCheck s :: widthCheck s (wsel == .multicolor) :: cs) :=
      firstFailing_of_passes (wselCheck_passes hwsel) _
    _ = firstFailing (widthCheck s (wsel == .multicolor) :: cs) := firstFailing_of_passes (configCheck_passes hconfig) _
    _ = firstFailing cs := firstFailing_of_passes (widthCheck_passes hwidth) _

/-! ### FormatError and RangeError (R221, R223) -/

/-- Settles O24: the configuration checks pass, and in each of the four commands the format check is the next. -/
theorem unindexedRasterRaisesFormatError : Obligations.UnindexedRasterRaisesFormatError := by
  intro i s hsamples hwf hconfig hwidth hfmt
  have hfails : (formatCheck s).fails = true := (formatCheck_fails s).2 hfmt
  have hfirst : ∀ cs, firstFailing (configCheck s :: formatCheck s :: cs) = some (formatCheck s) := fun cs =>
    (firstFailing_of_passes (configCheck_passes hconfig) _).trans (firstFailing_of_fails hfails cs)
  cases i
  all_goals simp only [exec]
  case detect ctx x y => exact runCommand_faulted (hfirst _) ..
  case buildCell cx cy => exact runCommand_faulted (hfirst _) ..
  case buildCharmap => exact runCommand_faulted (hfirst _) ..
  case encode ctx wsel x y =>
    have hpast := firstFailing_encode (wsel_ne_reserved_of_wellFormed hwf) hconfig
      fun ⟨hmc, hfg⟩ => hwidth ⟨asksMulticolor_encode hmc, hfg⟩
    exact runCommand_faulted ((hpast _).trans (firstFailing_of_fails hfails _)) ..
  all_goals exact hsamples.elim

theorem regionCheck_fails_of_not_inside {ctx : Context} {x y : Nat} (h : ¬ regionInside s ctx x y) :
    (regionCheck s ctx x y).fails = true := by
  rw [regionCheck_fails, ← not_le, ← not_le]
  exact not_and_or.1 h

/-- Settles O25: past the configuration and format checks the range check of the region or the cell fails. -/
theorem outsideRegionsRaiseRangeError : Obligations.OutsideRegionsRaiseRangeError := by
  intro s hconfig hfmt
  have hpastConfig := firstFailing_of_passes (configCheck_passes hconfig)
  have hpastFormat := firstFailing_of_passes (formatCheck_passes hfmt)
  refine ⟨fun ctx x y hout => ?_, fun ctx wsel x y hout hwsel hwidth => ?_, fun cx cy hout => ?_⟩ <;> simp only [exec]
  · have hrange := firstFailing_of_fails (regionCheck_fails_of_not_inside hout)
    exact runCommand_faulted ((hpastConfig _).trans ((hpastFormat _).trans (hrange _))) ..
  · have hrange := firstFailing_of_fails (regionCheck_fails_of_not_inside hout)
    have hpast := firstFailing_encode hwsel hconfig hwidth
    exact runCommand_faulted ((hpast _).trans ((hpastFormat _).trans (hrange _))) ..
  · have hrange := firstFailing_of_fails ((cellCheck_fails ..).2 hout)
    exact runCommand_faulted ((hpastConfig _).trans ((hpastFormat _).trans (hrange _))) ..

end Sys2Proof.Machine
end

section
/-! What a command leaves in the fault record and, when it faults, in `RESULT` (R225, R261). -/

namespace Sys2Proof.Machine

variable {s t : State}

/-! ### The codes that commands raise (R220, R222, R224) -/

/-- A code that a command raises: `IncompleteDataError` is reserved, and IllegalCommand is the dispatcher's. -/
def raisedByCommands (code : FaultCode) : Prop := code ≠ .incompleteData ∧ code ≠ .illegalCommand

theorem faultNumber_of_raisedByCommands {code : FaultCode} (h : raisedByCommands code) :
    faultNumber code = 1#4 ∨ faultNumber code = 2#4 ∨ faultNumber code = 5#4 ∨ faultNumber code = 6#4 ∨
      faultNumber code = 7#4 := by
  obtain ⟨hdata, hcommand⟩ := h
  cases code
  case incompleteData => exact absurd rfl hdata
  case illegalCommand => exact absurd rfl hcommand
  all_goals decide

theorem lookupOrInsert_raises_capacity {b : Block} {cell cell' : Word} {code : FaultCode}
    (h : lookupOrInsert b cell s = .raised code cell' t) : code = .capacity := by
  rcases lookupOrInsert_cases b cell s with ⟨i, -, hl⟩ | ⟨-, -, hl⟩ | ⟨-, -, hl⟩ <;> cases hl.symm.trans h
  rfl

theorem cellStep_raises_capacity {cx cy k : Nat} {cell : Word} {code : FaultCode}
    (h : cellStep cx cy k s = .raised code cell t) : code = .capacity := by
  rcases cellStep_cases cx cy k s with ⟨_, _, _, hl, hstep⟩ | ⟨_, _, _, -, hstep⟩ <;> cases hstep.symm.trans h
  exact lookupOrInsert_raises_capacity hl

theorem buildCells_raises_capacity {cells : List (Nat × Nat)} {cell : Word} {code : FaultCode}
    (h : buildCells cells s = .raised code cell t) : code = .capacity := by
  induction cells generalizing s with
  | nil => cases h
  | cons c rest ih =>
    obtain ⟨cx, cy⟩ := c
    rw [buildCells_cons] at h
    cases hc : cellStep cx cy (cellIndex s cx cy) s with
    | done v u =>
      rw [hc] at h
      exact ih h
    | raised code' cell' u =>
      rw [hc] at h
      cases h
      exact cellStep_raises_capacity hc

/-! ### The record after a command -/

theorem SameFaultRecord.refl (s : State) : SameFaultRecord s s := by constructor <;> rfl

theorem SameFaultRecord.trans {u : State} (h : SameFaultRecord s t) (k : SameFaultRecord t u) : SameFaultRecord s u where
  fault := k.fault.trans h.fault
  err := k.err.trans h.err
  ign := k.ign.trans h.ign
  errCmd := k.errCmd.trans h.errCmd
  errCell := k.errCell.trans h.errCell

theorem finalizeImage_keeps_record (s : State) : SameFaultRecord s (finalizeImage s) := by
  rw [finalizeImage_eq]
  exact ⟨rfl, rfl, rfl, promoteEmpty_errCmd s, promoteEmpty_errCell s⟩

/-- What `t` records of a command with word `w` that ran in `s`: a fault with its word and its code, `RESULT` not written, or
nothing. -/
structure RecordsCommand (w : Word) (s t : State) : Prop where
  fault : t.status.fault = true → t.result = s.result ∧ t.errCmd = w ∧
    (t.status.err = 1#4 ∨ t.status.err = 2#4 ∨ t.status.err = 5#4 ∨ t.status.err = 6#4 ∨ t.status.err = 7#4)
  completion : t.status.fault = false → SameFaultRecord s t

theorem recordsCommand_raiseFault {code : FaultCode} (hcode : raisedByCommands code) (hresult : t.result = s.result)
    (w cell : Word) : RecordsCommand w s (raiseFault w code cell t) where
  fault _ := ⟨hresult, rfl, faultNumber_of_raisedByCommands hcode⟩
  completion h := nomatch h

theorem SameFaultRecord.recordsCommand (h : SameFaultRecord s t) (hs : s.status.fault = false) (w : Word) :
    RecordsCommand w s t where
  fault ht := absurd (ht.symm.trans (h.fault.trans hs)) (by decide)
  completion _ := h

/-- The body of a command leaves the fault record alone when it completes, and `RESULT` when it raises. -/
def Attempt.LeavesReport {α : Type} (s : State) : Attempt α → Prop
  | .done _ t => SameFaultRecord s t
  | .raised code _ t => raisedByCommands code ∧ t.result = s.result

theorem runCommand_records {w : Word} {cs : List Check} {body : Attempt Unit} (h : runCommand w cs s body = .next t)
    (hs : s.status.fault = false) (hcodes : ∀ c ∈ cs, c.fails = true → raisedByCommands c.code)
    (hbody : body.LeavesReport s) : RecordsCommand w s t := by
  rcases runCommand_cases w cs s body with
    ⟨c, hc, hfails, hrun⟩ | ⟨-, ⟨u, t', rfl, hrun⟩ | ⟨code, cell, t', rfl, hrun⟩⟩ <;> cases hrun.symm.trans h
  · exact recordsCommand_raiseFault (hcodes c hc hfails) rfl w _
  · exact hbody.recordsCommand hs w
  · obtain ⟨hcode, hresult⟩ := hbody
    exact recordsCommand_raiseFault hcode hresult w cell

theorem runRead_records {w : Word} {v : Option Word} (h : runRead w v s = .next t) (hs : s.status.fault = false) :
    RecordsCommand w s t :=
  runCommand_records h hs (by simp [raisedByCommands]) (by constructor <;> rfl)

/-- The sub-operations that insert blocks write nothing of the report, and raise CapacityError only. -/
theorem leavesReport_of_capacity {α : Type} {a : Attempt α} (hkeeps : a.Keeps (SameReport s))
    (hcode : ∀ code cell t, a = .raised code cell t → code = .capacity) : a.LeavesReport s := by
  cases a with
  | done v u => exact hkeeps.record
  | raised code cell u =>
    obtain ⟨-, hreport⟩ := hkeeps
    obtain rfl : code = .capacity := hcode code cell u rfl
    exact ⟨by simp [raisedByCommands], hreport.result⟩

theorem lookupOrInsert_leavesReport (b : Block) (cell : Word) (s : State) : (lookupOrInsert b cell s).LeavesReport s :=
  leavesReport_of_capacity ((lookupOrInsert_keeps_rest b cell s).imp fun _ ⟨_, hreport, _⟩ => hreport)
    fun _ _ _ => lookupOrInsert_raises_capacity

theorem cellStep_leavesReport (cx cy k : Nat) (s : State) : (cellStep cx cy k s).LeavesReport s :=
  leavesReport_of_capacity ((cellStep_keeps_rest cx cy k s).imp fun _ ⟨_, hreport⟩ => hreport)
    fun _ _ _ => cellStep_raises_capacity

theorem buildCells_leavesReport (cells : List (Nat × Nat)) (s : State) : (buildCells cells s).LeavesReport s :=
  leavesReport_of_capacity (buildCells_keeps_report cells s) fun _ _ _ => buildCells_raises_capacity

theorem execLookupInsert_records (h : execLookupInsert s = .next t) (hs : s.status.fault = false) :
    RecordsCommand (encode .lookupInsert) s t := by
  refine runCommand_records h hs (by simp [raisedByCommands]) ?_
  have hinsert := lookupOrInsert_leavesReport (bufBlock s) noCell s
  cases hl : lookupOrInsert (bufBlock s) noCell s with
  | done v u =>
    rw [hl] at hinsert
    exact hinsert.trans (by constructor <;> rfl)
  | raised code cell u => rwa [hl] at hinsert

theorem execBuildCell_records {cx cy : BitVec 12} (h : execBuildCell cx cy s = .next t) (hs : s.status.fault = false) :
    RecordsCommand (encode (.buildCell cx cy)) s t := by
  refine runCommand_records h hs (by simp [raisedByCommands]) ?_
  have hcell := cellStep_leavesReport cx.toNat cy.toNat (cellIndex s cx.toNat cy.toNat) s
  cases hc : cellStep cx.toNat cy.toNat (cellIndex s cx.toNat cy.toNat) s with
  | done v u =>
    rw [hc] at hcell
    exact hcell.trans (by constructor <;> rfl)
  | raised code cell u => rwa [hc] at hcell

/-- The data clear of `BUILD_CHARMAP` leaves the record and `RESULT` (R200). -/
theorem execBuildCharmap_records (h : execBuildCharmap s = .next t) (hs : s.status.fault = false) :
    RecordsCommand (encode .buildCharmap) s t := by
  refine runCommand_records h hs (by simp [raisedByCommands]) ?_
  have hclear : SameFaultRecord s (dataClear s) := by constructor <;> rfl
  have hbuild := buildCells_leavesReport (cellsInRasterOrder s) (dataClear s)
  cases hb : buildCells (cellsInRasterOrder s) (dataClear s) with
  | done v u =>
    rw [hb] at hbuild
    exact (hclear.trans hbuild).trans (finalizeImage_keeps_record u)
  | raised code cell u => rwa [hb] at hbuild

/-- Every command but `CLEAR`, which resets the record, records its fault or nothing. -/
theorem exec_records {i : Instr} (hwf : i.wellFormed = true) (hs : s.status.fault = false) (hclear : i ≠ .clear)
    (h : exec i s = .next t) : RecordsCommand (encode i) s t := by
  cases i
  all_goals simp only [exec] at h
  case clear => exact absurd rfl hclear
  case roleReset => exact runCommand_records h hs (by simp [raisedByCommands]) (by constructor <;> rfl)
  case resolve ctx width pix => exact runCommand_records h hs (by simp [raisedByCommands]) (by constructor <;> rfl)
  case detect ctx x y => exact runCommand_records h hs (by simp [raisedByCommands]) (by constructor <;> rfl)
  case encode ctx wsel x y =>
    have hwsel := wselCheck_passes (wsel_ne_reserved_of_wellFormed hwf)
    exact runCommand_records h hs (by simp [raisedByCommands, hwsel]) (by constructor <;> rfl)
  case lookupInsert => exact execLookupInsert_records h hs
  case promoteEmpty =>
    have hkeeps : SameFaultRecord s (promoteEmpty s) := by constructor <;> simp
    exact runCommand_records h hs (by simp) hkeeps
  case buildCell cx cy => exact execBuildCell_records h hs
  case buildCharmap => exact execBuildCharmap_records h hs
  case finalize => exact runCommand_records h hs (by simp) (finalizeImage_keeps_record s)
  case readDict idx byte => exact runRead_records h hs
  case readMap idx => exact runRead_records h hs
  case readCmap idx => exact runRead_records h hs
  case readBuf byte => exact runRead_records h hs

/-- `CLEAR` makes no check, and leaves no fault (R201). -/
theorem exec_clear_leaves_no_fault (h : exec .clear s = .next t) : t.status.fault = false := by
  have hbody : exec .clear s = .next (clearBody s) := runCommand_done (encode .clear) [] s _ (by simp)
  cases hbody.symm.trans h
  rfl

/-- Settles O53: a command always answers, it writes only the image's pieces of state, and what it records follows from
which check or body decides. -/
theorem faultsAreRecordedAndLeaveTheResult : Obligations.FaultsAreRecordedAndLeaveTheResult := by
  intro i s hwf hs
  obtain ⟨t, h⟩ := exec_next i s
  refine ⟨t, h, exec_keeps_outside h, fun ht => ?_, fun ht hclear => (exec_records hwf hs hclear h).completion ht⟩
  have hclear : i ≠ .clear := by
    rintro rfl
    exact absurd (ht.symm.trans (exec_clear_leaves_no_fault h)) (by decide)
  exact (exec_records hwf hs hclear h).fault ht

end Sys2Proof.Machine
end

section
/-! The hardware reset and the idle unit (R240, R250, R251, R253). -/

namespace Sys2Proof.Machine

/-- Settles O7: the step without a pending event. -/
theorem idleUnitHoldsItsState : Obligations.IdleUnitHoldsItsState := step_idle

/-- Whichever numbers the two capacities are (log entry 1). -/
theorem capsLegal_reset : capsLegal State.reset :=
  ⟨Nat.succ_pos _, Config.dictCapLessOne.isLt, Nat.succ_pos _, Config.mapCapLessOne.isLt⟩

/-- Settles O59: the tables are empty and every flag is clear, so that only the capacities need an argument. -/
theorem resetIsAGoodState : Obligations.ResetIsAGoodState where
  caps := capsLegal_reset
  dict := ⟨Nat.zero_le _, List.nodup_nil⟩
  emptyRec := List.not_mem_nil
  cells := ⟨rfl, fun _ hc => absurd hc List.not_mem_nil⟩
  fault := ⟨rfl, rfl, rfl, rfl⟩
  block := ⟨rfl, rfl, rfl⟩
  raster := rfl

/-- Settles O15: what `CLEAR` resets is already as after reset. -/
theorem clearAfterResetIsReset : Obligations.ClearAfterResetIsReset := clearStartsAFreshImage State.reset

/-- No register but the two capacities remembers what it held before a hardware reset (R250). -/
theorem readReg_hardReset {r : Reg} (hdict : r ≠ .capDict) (hmap : r ≠ .capMap) (s : State) :
    readReg r (hardReset s) = readReg r State.reset := by
  cases r
  case capDict => exact absurd rfl hdict
  case capMap => exact absurd rfl hmap
  all_goals rfl

/-- The two capacities are not the unit's to reset (R55). -/
theorem readReg_capacities_hardReset (s : State) :
    readReg .capDict (hardReset s) = readReg .capDict s ∧ readReg .capMap (hardReset s) = readReg .capMap s :=
  ⟨rfl, rfl⟩

/-- Settles O14: the registers read as in the state after reset, whose table is R250's. -/
theorem hardResetSetsEveryRegister : Obligations.HardResetSetsEveryRegister := by
  intro s rest hq
  refine ⟨hardReset { s with queue := rest }, step_event s .hardReset rest hq, rfl, ?_⟩
  obtain ⟨hdict, hmap⟩ := readReg_capacities_hardReset { s with queue := rest }
  refine ⟨?_, ?_, ?_, ?_, ?_, ?_, ?_, ?_, ?_, ?_, ?_, ?_, ?_, ?_, ?_, ?_, ?_, ?_, ?_, ?_, ?_, hdict, hmap, rfl, rfl, rfl⟩
  all_goals
    rw [readReg_hardReset (by decide) (by decide)]
    rfl

end Sys2Proof.Machine
end

section
/-! `BUILD_CHARMAP` as a sequence of commands (R252 step 3): the cell sequencer neither reads `RESULT`, which alone the
commands write beside what it writes, nor the roles that stood before a cell. -/

namespace Sys2Proof.Machine

variable {s t u : State}

/-! ### `RESULT` and the roles are not read (R182, R190) -/

/-- What an operation answers, with `RESULT` set to `r` in the state that it leaves. -/
def Attempt.setResult {α : Type} (r : Word) : Attempt α → Attempt α
  | .done v t => .done v (Machine.setResult r t)
  | .raised code cell t => .raised code cell (Machine.setResult r t)

theorem lookupOrInsert_setResult (b : Block) (cell r : Word) (s : State) :
    lookupOrInsert b cell (setResult r s) = (lookupOrInsert b cell s).setResult r := by
  rcases lookupOrInsert_cases b cell s with ⟨i, hi, h⟩ | ⟨hb, hfull, h⟩ | ⟨hb, hroom, h⟩ <;> rw [h]
  · exact lookupOrInsert_of_found (s := setResult r s) hi cell
  · exact lookupOrInsert_of_full (s := setResult r s) hb hfull cell
  · exact lookupOrInsert_of_room (s := setResult r s) hb hroom cell

/-- `s` with other values in `RESULT` and the role file. -/
def withResultAndRoles (r : Word) (f : RoleFile) (s : State) : State := { s with result := r, roles := f }

/-- The encode step loads the role file from the configuration (R112, R132). -/
theorem encodeCell_withResultAndRoles (cx cy : Nat) (r : Word) (f : RoleFile) (s : State) :
    encodeCell cx cy (withResultAndRoles r f s) = setResult r (encodeCell cx cy s) := rfl

theorem cellStep_withResultAndRoles (cx cy k : Nat) (r : Word) (f : RoleFile) (s : State) :
    cellStep cx cy k (withResultAndRoles r f s) = (cellStep cx cy k s).setResult r := by
  have hlookup := lookupOrInsert_setResult (bufBlock (encodeCell cx cy s)) (BitVec.ofNat 32 k) r (encodeCell cx cy s)
  rw [← encodeCell_withResultAndRoles cx cy r f s] at hlookup
  cases hl : lookupOrInsert (bufBlock (encodeCell cx cy s)) (BitVec.ofNat 32 k) (encodeCell cx cy s) with
  | done v t =>
    rw [hl] at hlookup
    rw [cellStep_of_done hl]
    exact cellStep_of_done (s := withResultAndRoles r f s) hlookup
  | raised code cell t =>
    rw [hl] at hlookup
    rw [cellStep_of_raised hl]
    exact cellStep_of_raised (s := withResultAndRoles r f s) hlookup

/-- The first cell overwrites the roles; the cells after it see another `RESULT` only. -/
theorem buildCells_cons_withResultAndRoles {rest : List (Nat × Nat)} {r : Word}
    (hrest : ∀ t, buildCells rest (setResult r t) = (buildCells rest t).setResult r) (c : Nat × Nat) (f : RoleFile)
    (s : State) : buildCells (c :: rest) (withResultAndRoles r f s) = (buildCells (c :: rest) s).setResult r := by
  obtain ⟨cx, cy⟩ := c
  have hindex : cellIndex (withResultAndRoles r f s) cx cy = cellIndex s cx cy := rfl
  rw [buildCells_cons, buildCells_cons, hindex, cellStep_withResultAndRoles]
  cases cellStep cx cy (cellIndex s cx cy) s with
  | done v t => exact hrest t
  | raised code cell t => rfl

theorem buildCells_setResult (cells : List (Nat × Nat)) (r : Word) (s : State) :
    buildCells cells (setResult r s) = (buildCells cells s).setResult r := by
  induction cells generalizing s with
  | nil => rfl
  | cons c rest ih => exact buildCells_cons_withResultAndRoles ih c s.roles s

theorem buildCells_withResultAndRoles {cells : List (Nat × Nat)} (hcells : cells ≠ []) (r : Word) (f : RoleFile)
    (s : State) : buildCells cells (withResultAndRoles r f s) = (buildCells cells s).setResult r := by
  obtain ⟨c, rest, rfl⟩ := List.exists_cons_of_ne_nil hcells
  exact buildCells_cons_withResultAndRoles (buildCells_setResult rest r) c f s

theorem Attempt.done_of_setResult {α : Type} {a : Attempt α} {v : α} {r : Word} (h : a.setResult r = .done v t) :
    ∃ u, a = .done v u ∧ t = Machine.setResult r u := by
  cases a with
  | done v' u =>
    cases h
    exact ⟨u, rfl, rfl⟩
  | raised code cell u => cases h

/-- The promotion overwrites `RESULT` (R166). -/
theorem promoteEmpty_setResult (r : Word) (s : State) : promoteEmpty (setResult r s) = promoteEmpty s := by
  rcases promoteEmpty_cases s with ⟨e, he, h0, h⟩ | ⟨hrec, h⟩ <;> rw [h]
  · exact promoteEmpty_moves (s := setResult r s) he h0
  · exact promoteEmpty_stays (s := setResult r s) rfl hrec

theorem finalizeImage_setResult (r : Word) (s : State) : finalizeImage (setResult r s) = finalizeImage s := by
  rw [finalizeImage, finalizeImage, promoteEmpty_setResult]
  rfl

/-- `FINALIZE` makes no check: it always completes. -/
theorem exec_finalize (s : State) : exec .finalize s = .next (finalizeImage s) :=
  runCommand_done (encode .finalize) [] s (finalizeImage s) (by simp)

/-! ### A sequence of `BUILD_CELL` commands -/

/-- `BUILD_CELL` of one more cell, in the state that the commands before it left. -/
def thenBuildCell (o : Host.Outcome State Fault Refusal) (c : Nat × Nat) : Host.Outcome State Fault Refusal :=
  match o with
  | .next v => exec (.buildCell (BitVec.ofNat 12 c.1) (BitVec.ofNat 12 c.2)) v
  | .fault r => .fault r
  | .refused r => .refused r

/-- No `BUILD_CELL` leaves the fault state (R233). -/
theorem fault_stands_of_buildCell {x y : BitVec 12} (h : exec (.buildCell x y) s = .next t)
    (hs : s.status.fault = true) : t.status.fault = true :=
  execBuildCell_keeps h (P := fun u => u.status.fault = true) (fun _ _ _ _ _ _ => rfl) hs (fun _ _ hu => hu) fun _ =>
    (cellStep_keeps_rest ..).imp fun _ ⟨_, hreport⟩ => hreport.record.fault.trans hs

theorem fault_stands_of_buildCells {cells : List (Nat × Nat)} (h : cells.foldl thenBuildCell (.next s) = .next u)
    (hs : s.status.fault = true) : u.status.fault = true := by
  induction cells generalizing s with
  | nil =>
    cases h
    exact hs
  | cons c rest ih =>
    obtain ⟨t, ht⟩ := exec_next (.buildCell (BitVec.ofNat 12 c.1) (BitVec.ofNat 12 c.2)) s
    rw [List.foldl_cons, thenBuildCell, ht] at h
    exact ih h (fault_stands_of_buildCell ht hs)

/-- Of a sequence that ends without a fault the first command completes without one. -/
theorem first_buildCell_completes {c : Nat × Nat} {rest : List (Nat × Nat)}
    (h : (c :: rest).foldl thenBuildCell (.next s) = .next u) (hu : u.status.fault = false) :
    ∃ t, exec (.buildCell (BitVec.ofNat 12 c.1) (BitVec.ofNat 12 c.2)) s = .next t ∧ t.status.fault = false ∧
      rest.foldl thenBuildCell (.next t) = .next u := by
  obtain ⟨t, ht⟩ := exec_next (.buildCell (BitVec.ofNat 12 c.1) (BitVec.ofNat 12 c.2)) s
  rw [List.foldl_cons, thenBuildCell, ht] at h
  refine ⟨t, ht, ?_, h⟩
  by_contra hfault
  have hstands := fault_stands_of_buildCells h (Bool.eq_true_of_not_eq_false hfault)
  exact absurd (hu.symm.trans hstands) (by decide)

/-- A `BUILD_CELL` that completes without a fault passed its checks and built its cell (R181). -/
theorem cellStep_of_buildCell_completes {x y : BitVec 12} (h : exec (.buildCell x y) s = .next t)
    (ht : t.status.fault = false) :
    (configCheck s).fails = false ∧ (formatCheck s).fails = false ∧
      ∃ v w, cellStep x.toNat y.toNat (cellIndex s x.toNat y.toNat) s = .done v w ∧
        t = setResult (insertionResult v.1 v.2) w := by
  rw [exec, execBuildCell] at h
  rcases runCommand_cases (encode (.buildCell x y)) _ s _ with
    ⟨c, -, -, hrun⟩ | ⟨hpass, ⟨_, t', hbody, hrun⟩ | ⟨code, cell, t', -, hrun⟩⟩ <;> cases hrun.symm.trans h
  · cases ht
  · refine ⟨hpass _ (by simp), hpass _ (by simp), ?_⟩
    cases hc : cellStep x.toNat y.toNat (cellIndex s x.toNat y.toNat) s with
    | done v w =>
      rw [hc] at hbody
      cases hbody
      exact ⟨v, w, rfl, rfl⟩
    | raised code cell w =>
      rw [hc] at hbody
      cases hbody
  · cases ht

/-- Without a fault the commands build what the build cursor builds: they differ in the `RESULT` that each leaves. -/
theorem buildCells_of_buildCell_commands {cells : List (Nat × Nat)} (hbound : ∀ c ∈ cells, c.1 < 4096 ∧ c.2 < 4096)
    (h : cells.foldl thenBuildCell (.next s) = .next u) (hu : u.status.fault = false) :
    ∃ r t, buildCells cells s = .done () t ∧ u = setResult r t := by
  induction cells generalizing s with
  | nil =>
    cases h
    exact ⟨u.result, u, rfl, rfl⟩
  | cons c rest ih =>
    obtain ⟨cx, cy⟩ := c
    obtain ⟨hx, hy⟩ := hbound _ List.mem_cons_self
    obtain ⟨w, hw, hfault, hrest⟩ := first_buildCell_completes h hu
    obtain ⟨-, -, v, w', hstep, rfl⟩ := cellStep_of_buildCell_completes hw hfault
    obtain ⟨r, t, hbuilt, rfl⟩ := ih (fun c hc => hbound c (List.mem_cons_of_mem _ hc)) hrest
    rw [buildCells_setResult] at hbuilt
    obtain ⟨t', hdone, rfl⟩ := Attempt.done_of_setResult hbuilt
    rw [BitVec.toNat_ofNat, BitVec.toNat_ofNat, Nat.mod_eq_of_lt hx, Nat.mod_eq_of_lt hy] at hstep
    refine ⟨r, t', ?_, rfl⟩
    rw [buildCells_cons, hstep]
    exact hdone

/-! ### From `CLEAR` to `FINALIZE` -/

/-- On a unit with nothing in its fault record `CLEAR` is the data clear, with `RESULT` and the roles cleared too. -/
theorem exec_clear_of_no_report (hstatus : s.status = Status.clear) (hcmd : s.errCmd = 0#32)
    (hcell : s.errCell = 0xFFFFFFFF#32) :
    exec .clear s = .next (withResultAndRoles 0#32 RoleFile.unbound (dataClear s)) := by
  have hflags : dataClearFlags s.status = Status.clear := by rw [hstatus]; rfl
  rw [clearStartsAFreshImage s]
  simp only [withResultAndRoles, dataClear, hflags, hcmd, hcell, RoleFile.unbound]

theorem configOk_of_passes (h : (configCheck s).fails = false) : configOk s := by
  rw [configCheck_fails] at h
  rintro ⟨hfg, hmc⟩
  rw [hfg, hmc] at h
  cases h

theorem indexed_of_passes (h : (formatCheck s).fails = false) : s.rasterFmt = 1#1 := by
  have hne : s.rasterFmt ≠ 0#1 := by rw [ne_eq, ← formatCheck_fails, h]; decide
  exact BitVec.eq_of_toNat_eq (by bv_omega)

/-- Settles O46: `CLEAR` leaves the data clear's state but for `RESULT` and the roles, the cells are those that the build
cursor builds, and the finalization overwrites `RESULT`. -/
theorem buildCharmapIsCellByCell : Obligations.BuildCharmapIsCellByCell := by
  intro s u t hstatus hcmd hcell hsome hwidth hheight hfit hbuild hu hfinalize
  have hcells : cellsInRasterOrder s ≠ [] := by
    rw [← List.length_pos_iff, length_cellsInRasterOrder, Nat.mul_comm]
    exact hsome
  have hbound : ∀ c ∈ cellsInRasterOrder s, c.1 < 4096 ∧ c.2 < 4096 := fun c hc => by
    obtain ⟨hx, hy⟩ := (mem_cellsInRasterOrder s c.1 c.2).1 hc
    exact ⟨hx.trans_le hwidth, hy.trans_le hheight⟩
  have hcommands : (cellsInRasterOrder s).foldl thenBuildCell (exec .clear s) = .next u := hbuild
  rw [exec_clear_of_no_report hstatus hcmd hcell] at hcommands
  obtain ⟨hconfig, hfmt⟩ : configOk s ∧ s.rasterFmt = 1#1 := by
    obtain ⟨c, rest, hcons⟩ := List.exists_cons_of_ne_nil hcells
    rw [hcons] at hcommands
    obtain ⟨w, hw, hfault, -⟩ := first_buildCell_completes hcommands hu
    obtain ⟨hconfig, hfmt, -⟩ := cellStep_of_buildCell_completes hw hfault
    exact ⟨configOk_of_passes hconfig, indexed_of_passes hfmt⟩
  obtain ⟨r, w, hbuilt, rfl⟩ := buildCells_of_buildCell_commands hbound hcommands hu
  rw [buildCells_withResultAndRoles hcells] at hbuilt
  obtain ⟨w', hdone, rfl⟩ := Attempt.done_of_setResult hbuilt
  rw [exec_finalize, finalizeImage_setResult, finalizeImage_setResult] at hfinalize
  rw [exec_buildCharmap_done hconfig hfmt hfit hdone, hfinalize]

end Sys2Proof.Machine
end

section
/-! The encoder and the decoder are inverse to each other, and the statements of spec/30_encoding.md about the two (R91-R97,
R101). A word is a command's word if its fields are those that the encoder writes, and decodes to the command if they are
those that the decoder of its format asks for: the two sides meet field by field. -/

namespace Sys2Proof.Machine

variable {w : Word} {i : Instr}

/-! ### Words as fields -/

/-- A stretch of a word is a concatenation if the two parts of the stretch are its parts. -/
theorem extractLsb'_eq_append_iff {k m n lo : Nat} {v : BitVec k} {a : BitVec m} {b : BitVec n} :
    v.extractLsb' lo (m + n) = a ++ b ↔ v.extractLsb' (lo + n) m = a ∧ v.extractLsb' lo n = b := by
  rw [← BitVec.extractLsb'_append_extractLsb'_eq_extractLsb' rfl]
  constructor
  · intro h
    exact ⟨by simpa only [BitVec.extractLsb'_append_eq_left] using congrArg (BitVec.extractLsb' n m) h,
      by simpa only [BitVec.extractLsb'_append_eq_right] using congrArg (BitVec.extractLsb' 0 n) h⟩
  · rintro ⟨rfl, rfl⟩
    rfl

theorem setWidth_eq_word_iff {n : Nat} (hn : n = 32) {v : BitVec n} : v.setWidth 32 = w ↔ w.extractLsb' 0 n = v := by
  subst hn
  rw [BitVec.setWidth_eq, BitVec.extractLsb'_eq_self, eq_comm]

/-- The same of a whole word. -/
theorem append_eq_word_iff {m n : Nat} (hlen : m + n = 32) {a : BitVec m} {b : BitVec n} :
    (a ++ b).setWidth 32 = w ↔ w.extractLsb' n m = a ∧ w.extractLsb' 0 n = b := by
  rw [setWidth_eq_word_iff hlen, extractLsb'_eq_append_iff, Nat.zero_add]

theorem eq_contextBit_iff {ctx : Context} {b : BitVec 1} : b = contextBit ctx ↔ contextOf b = ctx :=
  ⟨fun h => by rw [h, contextOf_contextBit], fun h => by rw [← h, contextBit_contextOf]⟩

theorem eq_widthBit_iff {width : PixelWidth} {b : BitVec 1} : b = widthBit width ↔ widthOf b = width :=
  ⟨fun h => by rw [h, widthOf_widthBit], fun h => by rw [← h, widthBit_widthOf]⟩

theorem eq_widthSelBits_iff {wsel : WidthSel} {b : BitVec 2} : b = widthSelBits wsel ↔ widthSelOf b = wsel :=
  ⟨fun h => by rw [h, widthSelOf_widthSelBits], fun h => by rw [← h, widthSelBits_widthSelOf]⟩

/-- Format Z (R91). -/
theorem formatZ_eq_iff {op : BitVec 4} {z : BitVec 28} :
    (op ++ z).setWidth 32 = w ↔ w.extractLsb' 28 4 = op ∧ w.extractLsb' 0 28 = z := by
  rw [append_eq_word_iff rfl]

/-- Format P (R92). -/
theorem formatP_eq_iff {op : BitVec 4} {ctx width : BitVec 1} {z : BitVec 18} {pix : BitVec 8} :
    (op ++ ctx ++ width ++ z ++ pix).setWidth 32 = w ↔
      w.extractLsb' 28 4 = op ∧ w.extractLsb' 27 1 = ctx ∧ w.extractLsb' 26 1 = width ∧ w.extractLsb' 8 18 = z ∧
        w.extractLsb' 0 8 = pix := by
  rw [append_eq_word_iff rfl]
  iterate 3 rw [extractLsb'_eq_append_iff]
  simp only [and_assoc, Nat.reduceAdd]

/-- Format R (R93). -/
theorem formatR_eq_iff {op : BitVec 4} {ctx z : BitVec 1} {wsel : BitVec 2} {x y : BitVec 12} :
    (op ++ ctx ++ wsel ++ z ++ y ++ x).setWidth 32 = w ↔
      w.extractLsb' 28 4 = op ∧ w.extractLsb' 27 1 = ctx ∧ w.extractLsb' 25 2 = wsel ∧ w.extractLsb' 24 1 = z ∧
        w.extractLsb' 12 12 = y ∧ w.extractLsb' 0 12 = x := by
  rw [append_eq_word_iff rfl]
  iterate 4 rw [extractLsb'_eq_append_iff]
  simp only [and_assoc, Nat.reduceAdd]

/-- Format A (R94). -/
theorem formatA_eq_iff {op sel : BitVec 4} {idx : BitVec 16} {byte : BitVec 8} :
    (op ++ sel ++ idx ++ byte).setWidth 32 = w ↔
      w.extractLsb' 28 4 = op ∧ w.extractLsb' 24 4 = sel ∧ w.extractLsb' 8 16 = idx ∧ w.extractLsb' 0 8 = byte := by
  rw [append_eq_word_iff rfl]
  iterate 2 rw [extractLsb'_eq_append_iff]
  simp only [and_assoc, Nat.reduceAdd]

/-! ### What each format's decoder answers -/

/-- A check of bits that must be 0, the only one of its command. -/
theorem check_eq_legal_iff {c : Prop} [Decidable c] {j : Instr} {r : IllegalReason} :
    (if c then .legal j else .illegal r) = Decoded.legal i ↔ c ∧ j = i := by
  split <;> simp [*]

theorem decodeZ_eq_legal_iff {j : Instr} : decodeZ w j = .legal i ↔ w.extractLsb' 0 28 = 0#28 ∧ j = i :=
  check_eq_legal_iff

theorem decodeResolve_eq_legal_iff :
    decodeResolve w = .legal i ↔
      w.extractLsb' 8 18 = 0#18 ∧
        .resolve (contextOf (w.extractLsb' 27 1)) (widthOf (w.extractLsb' 26 1)) (w.extractLsb' 0 8) = i :=
  check_eq_legal_iff

theorem decodeDetect_eq_legal_iff :
    decodeDetect w = .legal i ↔
      (w.extractLsb' 25 2 = 0#2 ∧ w.extractLsb' 24 1 = 0#1) ∧
        .detect (contextOf (w.extractLsb' 27 1)) (w.extractLsb' 0 12) (w.extractLsb' 12 12) = i := by
  rw [bit24_eq_zero_iff, ← wselAndBit24_eq_zero_iff]
  exact check_eq_legal_iff

/-- The check of `WSEL` is the one that makes a command well-formed. -/
theorem decodeEncode_eq_legal_iff :
    decodeEncode w = .legal i ↔
      (i.wellFormed = true ∧ w.extractLsb' 24 1 = 0#1) ∧
        .encode (contextOf (w.extractLsb' 27 1)) (widthSelOf (w.extractLsb' 25 2)) (w.extractLsb' 0 12)
          (w.extractLsb' 12 12) = i := by
  have hwf (ctx : Context) (b : BitVec 2) (x y : BitVec 12) :
      (Instr.encode ctx (widthSelOf b) x y).wellFormed = true ↔ b ≠ 3#2 := by
    rw [Instr.wellFormed, bne_iff_ne, ne_eq, widthSelOf_eq_reserved]
  unfold decodeEncode
  split
  case isTrue hbit =>
    split
    case isTrue hwsel =>
      refine iff_of_false (by simp) ?_
      rintro ⟨⟨h, -⟩, rfl⟩
      exact (hwf _ _ _ _).1 h hwsel
    case isFalse hwsel =>
      rw [Decoded.legal.injEq]
      refine ⟨?_, And.right⟩
      rintro rfl
      exact ⟨⟨(hwf _ _ _ _).2 hwsel, hbit⟩, rfl⟩
  case isFalse hbit => simp [hbit]

theorem decodeBuildCell_eq_legal_iff :
    decodeBuildCell w = .legal i ↔
      (w.extractLsb' 27 1 = 0#1 ∧ w.extractLsb' 25 2 = 0#2 ∧ w.extractLsb' 24 1 = 0#1) ∧
        .buildCell (w.extractLsb' 0 12) (w.extractLsb' 12 12) = i := by
  have hctx : w.extractLsb' 27 1 = 0#1 ↔ w.getLsbD 27 = false := by
    simp only [extractLsb'_eq_zero_iff, getLsbD_eq_decide, decide_eq_false_iff_not]
    omega
  rw [hctx, bit24_eq_zero_iff, ← ctxWselAndBit24_eq_zero_iff]
  exact check_eq_legal_iff

/-- `SEL` selects the command, whose format leaves one field at 0 or none (R94). -/
theorem decodeRead_eq_legal_iff :
    decodeRead w = .legal i ↔
      (w.extractLsb' 24 4 = 0#4 ∧ .readDict (w.extractLsb' 8 16) (w.extractLsb' 0 8) = i) ∨
      (w.extractLsb' 24 4 = 1#4 ∧ w.extractLsb' 0 8 = 0#8 ∧ .readMap (w.extractLsb' 8 16) = i) ∨
      (w.extractLsb' 24 4 = 2#4 ∧ w.extractLsb' 0 8 = 0#8 ∧ .readCmap (w.extractLsb' 8 16) = i) ∨
      (w.extractLsb' 24 4 = 3#4 ∧ w.extractLsb' 8 16 = 0#16 ∧ .readBuf (w.extractLsb' 0 8) = i) := by
  unfold decodeRead
  split
  case isTrue hdict => simp [hdict]
  split
  case isTrue hmap => simp [hmap, check_eq_legal_iff]
  split
  case isTrue hcmap => simp [hcmap, check_eq_legal_iff]
  split
  case isTrue hbuf => simp [hbuf, check_eq_legal_iff]
  case isFalse hdict hmap hcmap hbuf => simp [hdict, hmap, hcmap, hbuf]

/-! ### The opcode selects the format (R90, R96) -/

open Laws.OpcodeField (opcodeOf)

/-- The decoder of a command's format. -/
def formatDecoder : Instr → Word → Decoded
  | .clear, w => decodeZ w .clear
  | .roleReset, w => decodeZ w .roleReset
  | .resolve _ _ _, w => decodeResolve w
  | .detect _ _ _, w => decodeDetect w
  | .encode _ _ _ _, w => decodeEncode w
  | .lookupInsert, w => decodeZ w .lookupInsert
  | .promoteEmpty, w => decodeZ w .promoteEmpty
  | .buildCell _ _, w => decodeBuildCell w
  | .buildCharmap, w => decodeZ w .buildCharmap
  | .finalize, w => decodeZ w .finalize
  | .readDict _ _, w => decodeRead w
  | .readMap _, w => decodeRead w
  | .readCmap _, w => decodeRead w
  | .readBuf _, w => decodeRead w

theorem decode_of_opcode (hop : w.extractLsb' 28 4 = opcodeOf i) : decode w = formatDecoder i w := by
  rw [decode, hop]
  cases i <;> rfl

/-- A word that decodes bears the opcode of its command. -/
theorem opcode_of_decode (h : decode w = .legal i) : w.extractLsb' 28 4 = opcodeOf i := by
  refine BitVec.eq_of_toNat_eq ?_
  unfold decode at h
  split at h
  next hop => obtain ⟨-, rfl⟩ := decodeZ_eq_legal_iff.1 h; exact hop
  next hop => obtain ⟨-, rfl⟩ := decodeZ_eq_legal_iff.1 h; exact hop
  next hop => obtain ⟨-, rfl⟩ := decodeResolve_eq_legal_iff.1 h; exact hop
  next hop => obtain ⟨-, rfl⟩ := decodeDetect_eq_legal_iff.1 h; exact hop
  next hop => obtain ⟨-, rfl⟩ := decodeEncode_eq_legal_iff.1 h; exact hop
  next hop => obtain ⟨-, rfl⟩ := decodeZ_eq_legal_iff.1 h; exact hop
  next hop => obtain ⟨-, rfl⟩ := decodeZ_eq_legal_iff.1 h; exact hop
  next hop => obtain ⟨-, rfl⟩ := decodeBuildCell_eq_legal_iff.1 h; exact hop
  next hop => obtain ⟨-, rfl⟩ := decodeZ_eq_legal_iff.1 h; exact hop
  next hop => obtain ⟨-, rfl⟩ := decodeZ_eq_legal_iff.1 h; exact hop
  next hop =>
    obtain ⟨-, rfl⟩ | ⟨-, -, rfl⟩ | ⟨-, -, rfl⟩ | ⟨-, -, rfl⟩ := decodeRead_eq_legal_iff.1 h <;> exact hop
  next => cases h

theorem decode_eq_legal_iff_formatDecoder :
    decode w = .legal i ↔ w.extractLsb' 28 4 = opcodeOf i ∧ formatDecoder i w = .legal i :=
  ⟨fun h => ⟨opcode_of_decode h, decode_of_opcode (opcode_of_decode h) ▸ h⟩,
    fun ⟨hop, h⟩ => (decode_of_opcode hop).trans h⟩

/-! ### The decoder inverts the encoder -/

/-- A command of format Z has no operands: its opcode says all (R91). -/
theorem decodeZ_iff_encode (hwf : i.wellFormed = true) (hencode : encode i = (opcodeOf i ++ 0#28).setWidth 32) :
    (w.extractLsb' 28 4 = opcodeOf i ∧ decodeZ w i = .legal i) ↔ i.wellFormed = true ∧ encode i = w := by
  rw [hencode, formatZ_eq_iff, decodeZ_eq_legal_iff]
  simp [hwf]

/-- A word decodes to a command if the command is well-formed and the word is its word. -/
theorem decode_eq_legal_iff : decode w = .legal i ↔ i.wellFormed = true ∧ encode i = w := by
  rw [decode_eq_legal_iff_formatDecoder]
  cases i with
  | clear | roleReset | lookupInsert | promoteEmpty | buildCharmap | finalize => exact decodeZ_iff_encode rfl rfl
  | resolve ctx width pix =>
    simp only [formatDecoder, decodeResolve_eq_legal_iff, encode, formatP_eq_iff, eq_contextBit_iff, eq_widthBit_iff,
      Instr.resolve.injEq, Instr.wellFormed, opcodeOf]
    tauto
  | detect ctx x y =>
    simp only [formatDecoder, decodeDetect_eq_legal_iff, encode, formatR_eq_iff, eq_contextBit_iff, Instr.detect.injEq,
      Instr.wellFormed, opcodeOf]
    tauto
  | encode ctx wsel x y =>
    simp only [formatDecoder, decodeEncode_eq_legal_iff, encode, formatR_eq_iff, eq_contextBit_iff, eq_widthSelBits_iff,
      Instr.encode.injEq, opcodeOf]
    tauto
  | buildCell cx cy =>
    simp only [formatDecoder, decodeBuildCell_eq_legal_iff, encode, formatR_eq_iff, Instr.buildCell.injEq,
      Instr.wellFormed, opcodeOf]
    tauto
  | readDict idx byte =>
    simp only [formatDecoder, decodeRead_eq_legal_iff, encode, formatA_eq_iff, Instr.readDict.injEq, reduceCtorEq,
      Instr.wellFormed, opcodeOf]
    tauto
  | readMap idx =>
    simp only [formatDecoder, decodeRead_eq_legal_iff, encode, formatA_eq_iff, Instr.readMap.injEq, reduceCtorEq,
      Instr.wellFormed, opcodeOf]
    tauto
  | readCmap idx =>
    simp only [formatDecoder, decodeRead_eq_legal_iff, encode, formatA_eq_iff, Instr.readCmap.injEq, reduceCtorEq,
      Instr.wellFormed, opcodeOf]
    tauto
  | readBuf byte =>
    simp only [formatDecoder, decodeRead_eq_legal_iff, encode, formatA_eq_iff, Instr.readBuf.injEq, reduceCtorEq,
      Instr.wellFormed, opcodeOf]
    tauto

/-- Settles O2: the command's own word decodes to it. -/
theorem decodeOfEncodeIsTheCommand : Obligations.DecodeOfEncodeIsTheCommand :=
  fun _ hwf => decode_eq_legal_iff.2 ⟨hwf, rfl⟩

/-- Settles O3: a word decodes to a command only if it is the command's word. -/
theorem encodeOfDecodeIsTheWord : Obligations.EncodeOfDecodeIsTheWord :=
  fun _ _ h => decode_eq_legal_iff.1 h

/-- Settles O1: each of the eight words is the word of the command that it is given for. -/
theorem decodesTheWorkedEncodings : Obligations.DecodesTheWorkedEncodings := by
  refine ⟨?_, ?_, ?_, ?_, ?_, ?_, ?_, ?_⟩ <;> exact decode_eq_legal_iff.2 (by decide)

end Sys2Proof.Machine
end
